-- ==== Sys2Proof/Word.lean ====
section
/-! DEFINITION. The fixed-width words of the machine (00_scope.md R9: bit 0 is the least significant bit). -/

namespace Sys2Proof

/-- A byte (8 bits). -/
abbrev Byte := BitVec 8

/-- A word of the manual's glossary (16 bits). -/
abbrev Word := BitVec 16

/-- A doubleword (32 bits): a general register, an offset. -/
abbrev DWord := BitVec 32

/-- A quadword (64 bits): the contents of one MMX register. -/
abbrev QWord := BitVec 64

end Sys2Proof
end

