-- ==== Sys2Proof/Config.lean ====
section
/-! DEFINITION. What the spec leaves to the implementation or the platform (00_scope.md R8).
A parameter that a claim may quantify over is plain data, held in State (`Platform`, `AddrSize`);
a value the source does not give at all is an opaque constant with no body. -/

namespace Sys2Proof

/-- An address size: `default_addr_size` ranges over these (R8, R52). -/
inductive AddrSize where
  | a16
  | a32
  deriving DecidableEq, Repr

/-- The values of the open parameter `ac_gate` (R60): no further condition (the source alone), or EFLAGS.AC = 1. -/
inductive AcGate where
  | always
  | eflagsAc
  deriving DecidableEq, Repr

/-- The values of the open parameter `ne0_policy` (R226, D11): what follows FERR# when CR0.NE = 0.
`externalInterrupt` carries the vector that the platform chooses. -/
inductive Ne0Policy where
  | stuck
  | externalInterrupt (vector : Nat)
  | ignore
  deriving DecidableEq, Repr

/-- The open parameters of the model that a platform fixes (R8). `popfdMask` holds "the bits software may change" of
EFLAGS (R214); the ID bit is one of them whatever the mask says (R31). -/
structure Platform where
  acGate : AcGate
  ne0Policy : Ne0Policy
  popfdMask : DWord
  deriving DecidableEq, Repr

/-- The four registers CPUID writes (R210). -/
inductive CpuidReg where
  | eax
  | ebx
  | ecx
  | edx
  deriving DecidableEq, Repr

/-- `cpuid_other` (R210, D33): every CPUID result bit the source does not give, for each function number. No body: a
claim holds whatever these values are. Log entry 20. -/
opaque Config.cpuidOther (function : DWord) (r : CpuidReg) : DWord

/-- Free values for the arithmetic flags whose result R214 does not state, applied to State's counter. No body. Log
entry 21. -/
opaque Config.freeFlags (n : Nat) : DWord

/-- What an unlisted memory address reads as: the spec gives no reset contents of memory (R41, R63). DESIGN CHOICE,
unsafe, log entry 4. -/
def Config.unlistedByte : Byte := 0

/-- The longest instruction (R91). -/
def Config.maxInstrBytes : Nat := 15

end Sys2Proof
end

