-- ==== Sys2Proof/Syntax.lean ====
section
/-! DEFINITION. The syntax of the 57 MMX instruction forms and CPUID: one constructor of `Instr` for each row of
spec/opcode_table.json, in the table's order (30_encoding.md R92). A term records the instruction exactly as it is
encoded (prefix bytes in their order, the ModRM/SIB/displacement form of a memory operand), so that an encoding and
its term determine each other (R98: different encodings of one operation are different terms). -/

namespace Sys2Proof

/-- The eight general registers (10_state.md R29). -/
inductive Gpr where
  | eax
  | ecx
  | edx
  | ebx
  | esp
  | ebp
  | esi
  | edi
  deriving DecidableEq, Repr

/-- The eight MMX registers, mmreg0 to mmreg7 of the manual (R20). -/
inductive MmReg where
  | mm0
  | mm1
  | mm2
  | mm3
  | mm4
  | mm5
  | mm6
  | mm7
  deriving DecidableEq, Repr

/-- The six segment registers (R33). -/
inductive Seg where
  | cs
  | ss
  | ds
  | es
  | fs
  | gs
  deriving DecidableEq, Repr

/-- The instruction prefixes the source gives a meaning: a segment override (R88), the address-size override 67h (R89),
LOCK (R90). -/
inductive Pfx where
  | seg (r : Seg)
  | addrSize
  | lock
  deriving DecidableEq, Repr

/-- The prefix bytes of one instruction in their order: they "may stand in any order and may repeat" (R91). -/
abbrev Prefixes := List Pfx

/-- The displacement after a ModRM/SIB byte with 32-bit addressing: mod 00, mod 01 (disp8), mod 10 (disp32) (R83). -/
inductive Disp32 where
  | none
  | d8 (d : Byte)
  | d32 (d : DWord)
  deriving DecidableEq, Repr

/-- The displacement with 16-bit addressing: mod 00, mod 01 (disp8), mod 10 (disp16) (R83). -/
inductive Disp16 where
  | none
  | d8 (d : Byte)
  | d16 (d : Word)
  deriving DecidableEq, Repr

/-- A memory operand with 32-bit addressing (20_memory.md R51, 30_encoding.md R83, R85). `abs`: mod 00, rm 101b, a
disp32 and no base. `base`: rm names the base register. `sib`: a SIB byte with a base register. `sibAbs`: a SIB byte
with base 101b and mod 00, a disp32 and no base. The index `none` is the encoding 100b; the scale field is kept even
then. -/
inductive Mem32 where
  | abs (d : DWord)
  | base (r : Gpr) (d : Disp32)
  | sib (ss : BitVec 2) (index : Option Gpr) (base : Gpr) (d : Disp32)
  | sibAbs (ss : BitVec 2) (index : Option Gpr) (d : DWord)
  deriving DecidableEq, Repr

/-- The base forms of 16-bit addressing, in the order of rm (R52). -/
inductive Base16 where
  | bxsi
  | bxdi
  | bpsi
  | bpdi
  | si
  | di
  | bp
  | bx
  deriving DecidableEq, Repr

/-- A memory operand with 16-bit addressing (R52). `abs`: mod 00, rm 110b, a disp16 and no base. -/
inductive Mem16 where
  | abs (d : Word)
  | based (b : Base16) (d : Disp16)
  deriving DecidableEq, Repr

/-- A memory operand, in the address size it is encoded in. -/
inductive MemOp where
  | a32 (m : Mem32)
  | a16 (m : Mem16)
  deriving DecidableEq, Repr

/-- An `r/m` operand: a register (mod 11b) or memory (R83). `R` is `MmReg` for mmreg2/mem64 and `Gpr` for reg32/mem32
(R81). -/
inductive RM (R : Type) where
  | reg (r : R)
  | mem (m : MemOp)
  deriving DecidableEq, Repr

/-- The instructions: one constructor for each row of spec/opcode_table.json, operands destination first (R81, R102). -/
inductive Instr where
  /-- `0F 60 /r`: PUNPCKLBW mmreg1, mmreg2/mem64 (R163). -/
  | punpcklbw (p : Prefixes) (dst : MmReg) (src : RM MmReg)
  /-- `0F 61 /r`: PUNPCKLWD mmreg1, mmreg2/mem64 (R164). -/
  | punpcklwd (p : Prefixes) (dst : MmReg) (src : RM MmReg)
  /-- `0F 62 /r`: PUNPCKLDQ mmreg1, mmreg2/mem64 (R165). -/
  | punpckldq (p : Prefixes) (dst : MmReg) (src : RM MmReg)
  /-- `0F 63 /r`: PACKSSWB mmreg1, mmreg2/mem64 (R157). -/
  | packsswb (p : Prefixes) (dst : MmReg) (src : RM MmReg)
  /-- `0F 64 /r`: PCMPGTB mmreg1, mmreg2/mem64 (R149). -/
  | pcmpgtb (p : Prefixes) (dst : MmReg) (src : RM MmReg)
  /-- `0F 65 /r`: PCMPGTW mmreg1, mmreg2/mem64 (R150). -/
  | pcmpgtw (p : Prefixes) (dst : MmReg) (src : RM MmReg)
  /-- `0F 66 /r`: PCMPGTD mmreg1, mmreg2/mem64 (R151). -/
  | pcmpgtd (p : Prefixes) (dst : MmReg) (src : RM MmReg)
  /-- `0F 67 /r`: PACKUSWB mmreg1, mmreg2/mem64 (R158). -/
  | packuswb (p : Prefixes) (dst : MmReg) (src : RM MmReg)
  /-- `0F 68 /r`: PUNPCKHBW mmreg1, mmreg2/mem64 (R160). -/
  | punpckhbw (p : Prefixes) (dst : MmReg) (src : RM MmReg)
  /-- `0F 69 /r`: PUNPCKHWD mmreg1, mmreg2/mem64 (R161). -/
  | punpckhwd (p : Prefixes) (dst : MmReg) (src : RM MmReg)
  /-- `0F 6A /r`: PUNPCKHDQ mmreg1, mmreg2/mem64 (R162). -/
  | punpckhdq (p : Prefixes) (dst : MmReg) (src : RM MmReg)
  /-- `0F 6B /r`: PACKSSDW mmreg1, mmreg2/mem64 (R156). -/
  | packssdw (p : Prefixes) (dst : MmReg) (src : RM MmReg)
  /-- `0F 6E /r`: MOVD mmreg1, reg32/mem32 (R181). -/
  | movdLoad (p : Prefixes) (dst : MmReg) (src : RM Gpr)
  /-- `0F 6F /r`: MOVQ mmreg1, mmreg2/mem64 (R183). -/
  | movqLoad (p : Prefixes) (dst : MmReg) (src : RM MmReg)
  /-- `0F 71 /2 ib`: PSRLW mmreg1, imm8 (R203). -/
  | psrlwImm (p : Prefixes) (dst : MmReg) (imm : Byte)
  /-- `0F 71 /4 ib`: PSRAW mmreg1, imm8 (R199). -/
  | psrawImm (p : Prefixes) (dst : MmReg) (imm : Byte)
  /-- `0F 71 /6 ib`: PSLLW mmreg1, imm8 (R193). -/
  | psllwImm (p : Prefixes) (dst : MmReg) (imm : Byte)
  /-- `0F 72 /2 ib`: PSRLD mmreg1, imm8 (R205). -/
  | psrldImm (p : Prefixes) (dst : MmReg) (imm : Byte)
  /-- `0F 72 /4 ib`: PSRAD mmreg1, imm8 (R201). -/
  | psradImm (p : Prefixes) (dst : MmReg) (imm : Byte)
  /-- `0F 72 /6 ib`: PSLLD mmreg1, imm8 (R195). -/
  | pslldImm (p : Prefixes) (dst : MmReg) (imm : Byte)
  /-- `0F 73 /2 ib`: PSRLQ mmreg1, imm8 (R207). -/
  | psrlqImm (p : Prefixes) (dst : MmReg) (imm : Byte)
  /-- `0F 73 /6 ib`: PSLLQ mmreg1, imm8 (R197). -/
  | psllqImm (p : Prefixes) (dst : MmReg) (imm : Byte)
  /-- `0F 74 /r`: PCMPEQB mmreg1, mmreg2/mem64 (R146). -/
  | pcmpeqb (p : Prefixes) (dst : MmReg) (src : RM MmReg)
  /-- `0F 75 /r`: PCMPEQW mmreg1, mmreg2/mem64 (R147). -/
  | pcmpeqw (p : Prefixes) (dst : MmReg) (src : RM MmReg)
  /-- `0F 76 /r`: PCMPEQD mmreg1, mmreg2/mem64 (R148). -/
  | pcmpeqd (p : Prefixes) (dst : MmReg) (src : RM MmReg)
  /-- `0F 77`: EMMS (R140). -/
  | emms (p : Prefixes)
  /-- `0F 7E /r`: MOVD reg32/mem32, mmreg1 (R182). -/
  | movdStore (p : Prefixes) (dst : RM Gpr) (src : MmReg)
  /-- `0F 7F /r`: MOVQ mmreg2/mem64, mmreg1 (R184). -/
  | movqStore (p : Prefixes) (dst : RM MmReg) (src : MmReg)
  /-- `0F D1 /r`: PSRLW mmreg1, mmreg2/mem64 (R202). -/
  | psrlw (p : Prefixes) (dst : MmReg) (src : RM MmReg)
  /-- `0F D2 /r`: PSRLD mmreg1, mmreg2/mem64 (R204). -/
  | psrld (p : Prefixes) (dst : MmReg) (src : RM MmReg)
  /-- `0F D3 /r`: PSRLQ mmreg1, mmreg2/mem64 (R206). -/
  | psrlq (p : Prefixes) (dst : MmReg) (src : RM MmReg)
  /-- `0F D5 /r`: PMULLW mmreg1, mmreg2/mem64 (R133). -/
  | pmullw (p : Prefixes) (dst : MmReg) (src : RM MmReg)
  /-- `0F D8 /r`: PSUBUSB mmreg1, mmreg2/mem64 (R123). -/
  | psubusb (p : Prefixes) (dst : MmReg) (src : RM MmReg)
  /-- `0F D9 /r`: PSUBUSW mmreg1, mmreg2/mem64 (R124). -/
  | psubusw (p : Prefixes) (dst : MmReg) (src : RM MmReg)
  /-- `0F DB /r`: PAND mmreg1, mmreg2/mem64 (R171). -/
  | pand (p : Prefixes) (dst : MmReg) (src : RM MmReg)
  /-- `0F DC /r`: PADDUSB mmreg1, mmreg2/mem64 (R116). -/
  | paddusb (p : Prefixes) (dst : MmReg) (src : RM MmReg)
  /-- `0F DD /r`: PADDUSW mmreg1, mmreg2/mem64 (R117). -/
  | paddusw (p : Prefixes) (dst : MmReg) (src : RM MmReg)
  /-- `0F DF /r`: PANDN mmreg1, mmreg2/mem64 (R172). -/
  | pandn (p : Prefixes) (dst : MmReg) (src : RM MmReg)
  /-- `0F E1 /r`: PSRAW mmreg1, mmreg2/mem64 (R198). -/
  | psraw (p : Prefixes) (dst : MmReg) (src : RM MmReg)
  /-- `0F E2 /r`: PSRAD mmreg1, mmreg2/mem64 (R200). -/
  | psrad (p : Prefixes) (dst : MmReg) (src : RM MmReg)
  /-- `0F E5 /r`: PMULHW mmreg1, mmreg2/mem64 (R132). -/
  | pmulhw (p : Prefixes) (dst : MmReg) (src : RM MmReg)
  /-- `0F E8 /r`: PSUBSB mmreg1, mmreg2/mem64 (R121). -/
  | psubsb (p : Prefixes) (dst : MmReg) (src : RM MmReg)
  /-- `0F E9 /r`: PSUBSW mmreg1, mmreg2/mem64 (R122). -/
  | psubsw (p : Prefixes) (dst : MmReg) (src : RM MmReg)
  /-- `0F EB /r`: POR mmreg1, mmreg2/mem64 (R173). -/
  | por (p : Prefixes) (dst : MmReg) (src : RM MmReg)
  /-- `0F EC /r`: PADDSB mmreg1, mmreg2/mem64 (R114). -/
  | paddsb (p : Prefixes) (dst : MmReg) (src : RM MmReg)
  /-- `0F ED /r`: PADDSW mmreg1, mmreg2/mem64 (R115). -/
  | paddsw (p : Prefixes) (dst : MmReg) (src : RM MmReg)
  /-- `0F EF /r`: PXOR mmreg1, mmreg2/mem64 (R174). -/
  | pxor (p : Prefixes) (dst : MmReg) (src : RM MmReg)
  /-- `0F F1 /r`: PSLLW mmreg1, mmreg2/mem64 (R192). -/
  | psllw (p : Prefixes) (dst : MmReg) (src : RM MmReg)
  /-- `0F F2 /r`: PSLLD mmreg1, mmreg2/mem64 (R194). -/
  | pslld (p : Prefixes) (dst : MmReg) (src : RM MmReg)
  /-- `0F F3 /r`: PSLLQ mmreg1, mmreg2/mem64 (R196). -/
  | psllq (p : Prefixes) (dst : MmReg) (src : RM MmReg)
  /-- `0F F5 /r`: PMADDWD mmreg1, mmreg2/mem64 (R131). -/
  | pmaddwd (p : Prefixes) (dst : MmReg) (src : RM MmReg)
  /-- `0F F8 /r`: PSUBB mmreg1, mmreg2/mem64 (R118). -/
  | psubb (p : Prefixes) (dst : MmReg) (src : RM MmReg)
  /-- `0F F9 /r`: PSUBW mmreg1, mmreg2/mem64 (R119). -/
  | psubw (p : Prefixes) (dst : MmReg) (src : RM MmReg)
  /-- `0F FA /r`: PSUBD mmreg1, mmreg2/mem64 (R120). -/
  | psubd (p : Prefixes) (dst : MmReg) (src : RM MmReg)
  /-- `0F FC /r`: PADDB mmreg1, mmreg2/mem64 (R111). -/
  | paddb (p : Prefixes) (dst : MmReg) (src : RM MmReg)
  /-- `0F FD /r`: PADDW mmreg1, mmreg2/mem64 (R112). -/
  | paddw (p : Prefixes) (dst : MmReg) (src : RM MmReg)
  /-- `0F FE /r`: PADDD mmreg1, mmreg2/mem64 (R113). -/
  | paddd (p : Prefixes) (dst : MmReg) (src : RM MmReg)
  /-- `0F A2`: CPUID (R210). -/
  | cpuid (p : Prefixes)
  deriving DecidableEq, Repr

/-- Why a byte sequence is not decoded (each refusal of the decoder is safe: the model says nothing about the bytes). -/
inductive DecodeError where
  /-- The bytes end before the instruction does. -/
  | truncated
  /-- Prefix 66h, F2h or F3h on an MMX instruction: not in the source (R91, D16). -/
  | pfxNotInSource (b : Byte)
  /-- The byte after the prefixes is not 0Fh: no MMX instruction and not CPUID (R80, R100). -/
  | notTwoByteOpcode (b : Byte)
  /-- A second opcode byte that no row assigns (R94, R97, D17). -/
  | unassignedOpcode (op : Byte)
  /-- 0F 71, 72 or 73 with a ModRM.reg digit that no row assigns (R95, R97). -/
  | unassignedShift (op : Byte) (digit : BitVec 3)
  /-- 0F 71, 72 or 73 with ModRM.mod other than 11b (R97). -/
  | shiftWithMemory (op : Byte)
  /-- More than 15 bytes in total (R91). -/
  | tooLong
  /-- LOCK before CPUID: R90 gives LOCK an effect on MMX instructions only. -/
  | lockOnCpuid
  deriving DecidableEq, Repr

end Sys2Proof
end

