-- ==== Sys2Proof/HostSyntax.lean ====
section
/-! DEFINITION. The base x86 instructions of the manual's two detection samples (48_host_instructions.md R214). They have
no row in spec/opcode_table.json and 00_scope.md R6 (1) leaves the base x86 set out of scope; the model runs these few,
as R214 states them, so that the detection procedure (R216) runs. They are no constructors of `Instr`. -/

namespace Sys2Proof

/-- The instructions of R214's table. -/
inductive HostInstr where
  /-- `9C`. -/
  | pushfd
  /-- `58`. -/
  | popEax
  /-- `8B D8`. -/
  | movEbxEax
  /-- `35 id`. -/
  | xorEax (imm : DWord)
  /-- `50`. -/
  | pushEax
  /-- `9D`. -/
  | popfd
  /-- `3B C3`. -/
  | cmpEaxEbx
  /-- `74 cb`. -/
  | jz (rel : Byte)
  /-- `B8 id`. -/
  | movEax (imm : DWord)
  /-- `F7 C2 id`. -/
  | testEdx (imm : DWord)
  /-- `75 cb`. -/
  | jnz (rel : Byte)
  deriving DecidableEq, Repr

end Sys2Proof
end

