-- ==== Sys2Proof/WellFormed.lean ====
section
/-! DEFINITION. Which terms of the syntax are encodings: a memory operand in the address size in force (30_encoding.md
R89), in a form its ModRM and SIB bytes can say (R83, R85), at most 15 bytes in all (R91). Everything else is legal
(R97: "There are no reserved fields inside an MMX instruction"). All checks are Bool. -/

namespace Sys2Proof

/-- The other address size (R89). -/
def AddrSize.other : AddrSize → AddrSize
  | .a16 => .a32
  | .a32 => .a16

/-- `ESP` as base needs a SIB byte; `EBP` with mod 00 is the disp32 form (R83). `ESP` is no index and `EBP` as SIB base
with mod 00 is the form without base (R85). -/
def Mem32.wf : Mem32 → Bool
  | .abs _ => true
  | .base r d => r != .esp && (r != .ebp || d != .none)
  | .sib _ idx b d => idx != some .esp && (b != .ebp || d != .none)
  | .sibAbs _ idx _ => idx != some .esp

/-- `BP` with mod 00 is the disp16 form (R83). -/
def Mem16.wf : Mem16 → Bool
  | .abs _ => true
  | .based b d => b != .bp || d != .none

/-- The address size of a memory operand's form. -/
def MemOp.size : MemOp → AddrSize
  | .a32 _ => .a32
  | .a16 _ => .a16

/-- The form is one that bytes can encode. -/
def MemOp.wf : MemOp → Bool
  | .a32 m => m.wf
  | .a16 m => m.wf

/-- The address size in force for an instruction with prefixes `p` in a code segment of size `dflt` (R89, R100). -/
def sizeInForce (dflt : AddrSize) (p : Prefixes) : AddrSize :=
  if p.contains .addrSize then dflt.other else dflt

/-- An `r/m` operand is well formed if it is a register or a memory form of the address size in force. -/
def RM.wf {R : Type} (dflt : AddrSize) (p : Prefixes) : RM R → Bool
  | .reg _ => true
  | .mem m => m.wf && m.size == sizeInForce dflt p

/-- Bytes of displacement (R83). -/
def Disp32.bytes : Disp32 → Nat
  | .none => 0
  | .d8 _ => 1
  | .d32 _ => 4

/-- Bytes of displacement (R83). -/
def Disp16.bytes : Disp16 → Nat
  | .none => 0
  | .d8 _ => 1
  | .d16 _ => 2

/-- Bytes after the ModRM byte: SIB and displacement (R99). So the longest form without a prefix byte, `0F op ModRM SIB
disp32`, is 8 bytes, by the sum of R99; R80 says 7 of it. The model's choice, DEDUCED, log entry 44. -/
def MemOp.bytes : MemOp → Nat
  | .a32 (.abs _) => 4
  | .a32 (.base _ d) => d.bytes
  | .a32 (.sib _ _ _ d) => 1 + d.bytes
  | .a32 (.sibAbs _ _ _) => 5
  | .a16 (.abs _) => 2
  | .a16 (.based _ d) => d.bytes

/-- The whole length by the sum of R99: prefixes, two opcode bytes, ModRM, SIB, displacement. -/
def RM.fits {R : Type} (p : Prefixes) : RM R → Bool
  | .reg _ => p.length + 3 ≤ Config.maxInstrBytes
  | .mem m => p.length + 3 + m.bytes ≤ Config.maxInstrBytes

/-- The instruction is one that some bytes encode in a code segment of address size `dflt`. -/
def Instr.wf (dflt : AddrSize) : Instr → Bool
  | .punpcklbw p _ src => src.wf dflt p && src.fits p
  | .punpcklwd p _ src => src.wf dflt p && src.fits p
  | .punpckldq p _ src => src.wf dflt p && src.fits p
  | .packsswb p _ src => src.wf dflt p && src.fits p
  | .pcmpgtb p _ src => src.wf dflt p && src.fits p
  | .pcmpgtw p _ src => src.wf dflt p && src.fits p
  | .pcmpgtd p _ src => src.wf dflt p && src.fits p
  | .packuswb p _ src => src.wf dflt p && src.fits p
  | .punpckhbw p _ src => src.wf dflt p && src.fits p
  | .punpckhwd p _ src => src.wf dflt p && src.fits p
  | .punpckhdq p _ src => src.wf dflt p && src.fits p
  | .packssdw p _ src => src.wf dflt p && src.fits p
  | .movdLoad p _ src => src.wf dflt p && src.fits p
  | .movqLoad p _ src => src.wf dflt p && src.fits p
  | .psrlwImm p _ _ => p.length + 4 ≤ Config.maxInstrBytes
  | .psrawImm p _ _ => p.length + 4 ≤ Config.maxInstrBytes
  | .psllwImm p _ _ => p.length + 4 ≤ Config.maxInstrBytes
  | .psrldImm p _ _ => p.length + 4 ≤ Config.maxInstrBytes
  | .psradImm p _ _ => p.length + 4 ≤ Config.maxInstrBytes
  | .pslldImm p _ _ => p.length + 4 ≤ Config.maxInstrBytes
  | .psrlqImm p _ _ => p.length + 4 ≤ Config.maxInstrBytes
  | .psllqImm p _ _ => p.length + 4 ≤ Config.maxInstrBytes
  | .pcmpeqb p _ src => src.wf dflt p && src.fits p
  | .pcmpeqw p _ src => src.wf dflt p && src.fits p
  | .pcmpeqd p _ src => src.wf dflt p && src.fits p
  | .emms p => p.length + 2 ≤ Config.maxInstrBytes
  | .movdStore p dst _ => dst.wf dflt p && dst.fits p
  | .movqStore p dst _ => dst.wf dflt p && dst.fits p
  | .psrlw p _ src => src.wf dflt p && src.fits p
  | .psrld p _ src => src.wf dflt p && src.fits p
  | .psrlq p _ src => src.wf dflt p && src.fits p
  | .pmullw p _ src => src.wf dflt p && src.fits p
  | .psubusb p _ src => src.wf dflt p && src.fits p
  | .psubusw p _ src => src.wf dflt p && src.fits p
  | .pand p _ src => src.wf dflt p && src.fits p
  | .paddusb p _ src => src.wf dflt p && src.fits p
  | .paddusw p _ src => src.wf dflt p && src.fits p
  | .pandn p _ src => src.wf dflt p && src.fits p
  | .psraw p _ src => src.wf dflt p && src.fits p
  | .psrad p _ src => src.wf dflt p && src.fits p
  | .pmulhw p _ src => src.wf dflt p && src.fits p
  | .psubsb p _ src => src.wf dflt p && src.fits p
  | .psubsw p _ src => src.wf dflt p && src.fits p
  | .por p _ src => src.wf dflt p && src.fits p
  | .paddsb p _ src => src.wf dflt p && src.fits p
  | .paddsw p _ src => src.wf dflt p && src.fits p
  | .pxor p _ src => src.wf dflt p && src.fits p
  | .psllw p _ src => src.wf dflt p && src.fits p
  | .pslld p _ src => src.wf dflt p && src.fits p
  | .psllq p _ src => src.wf dflt p && src.fits p
  | .pmaddwd p _ src => src.wf dflt p && src.fits p
  | .psubb p _ src => src.wf dflt p && src.fits p
  | .psubw p _ src => src.wf dflt p && src.fits p
  | .psubd p _ src => src.wf dflt p && src.fits p
  | .paddb p _ src => src.wf dflt p && src.fits p
  | .paddw p _ src => src.wf dflt p && src.fits p
  | .paddd p _ src => src.wf dflt p && src.fits p
  | .cpuid p => !p.contains .lock && p.length + 2 ≤ Config.maxInstrBytes

end Sys2Proof
end

