-- ==== Sys2Proof/Decode.lean ====
section
/-! DEFINITION. The decoder (30_encoding.md R80 to R100), total on any bytes and rejecting by name; after it the encoder,
written from the same tables; the length of an instruction (R99); the decoder of the sample instructions (R214); the
words of the opcode table (`decodeTableWord`). -/

namespace Sys2Proof

/-! ## Field values -/

/-- The general register a 3-bit field names (R84). -/
def Gpr.ofBits (b : BitVec 3) : Gpr :=
  match b.toNat with
  | 0 => .eax
  | 1 => .ecx
  | 2 => .edx
  | 3 => .ebx
  | 4 => .esp
  | 5 => .ebp
  | 6 => .esi
  | _ => .edi

/-- The number of a general register (R84). -/
def Gpr.bits : Gpr → BitVec 3
  | .eax => 0
  | .ecx => 1
  | .edx => 2
  | .ebx => 3
  | .esp => 4
  | .ebp => 5
  | .esi => 6
  | .edi => 7

/-- The MMX register a 3-bit field names (R84). -/
def MmReg.ofBits (b : BitVec 3) : MmReg :=
  match b.toNat with
  | 0 => .mm0
  | 1 => .mm1
  | 2 => .mm2
  | 3 => .mm3
  | 4 => .mm4
  | 5 => .mm5
  | 6 => .mm6
  | _ => .mm7

/-- The number of an MMX register (R84). -/
def MmReg.bits : MmReg → BitVec 3
  | .mm0 => 0
  | .mm1 => 1
  | .mm2 => 2
  | .mm3 => 3
  | .mm4 => 4
  | .mm5 => 5
  | .mm6 => 6
  | .mm7 => 7

/-- The base form that rm names with 16-bit addressing (R52). -/
def Base16.ofBits (b : BitVec 3) : Base16 :=
  match b.toNat with
  | 0 => .bxsi
  | 1 => .bxdi
  | 2 => .bpsi
  | 3 => .bpdi
  | 4 => .si
  | 5 => .di
  | 6 => .bp
  | _ => .bx

/-- The rm value of a 16-bit base form (R52). -/
def Base16.bits : Base16 → BitVec 3
  | .bxsi => 0
  | .bxdi => 1
  | .bpsi => 2
  | .bpdi => 3
  | .si => 4
  | .di => 5
  | .bp => 6
  | .bx => 7

/-- The index register of a SIB byte: 100b is no index (R85). -/
def sibIndex (b : BitVec 3) : Option Gpr :=
  if b = 4 then none else some (Gpr.ofBits b)

/-- The index field of a SIB byte (R85). -/
def sibIndexBits : Option Gpr → BitVec 3
  | none => 4
  | some r => r.bits

/-- A ModRM byte: mod in bits 7:6, reg in 5:3, rm in 2:0 (R83). A SIB byte has the same layout (R85). -/
def packModRM (mod : BitVec 2) (reg rm : BitVec 3) : Byte := mod ++ reg ++ rm

/-- Bits 7:6 of a ModRM or SIB byte (R83, R85). -/
def modField (b : Byte) : BitVec 2 := b.extractLsb' 6 2

/-- Bits 5:3 of a ModRM or SIB byte. -/
def regField (b : Byte) : BitVec 3 := b.extractLsb' 3 3

/-- Bits 2:0 of a ModRM or SIB byte. -/
def rmField (b : Byte) : BitVec 3 := b.extractLsb' 0 3

/-! ## Reading bytes -/

/-- What a parser answers: the value read and the bytes left. -/
abbrev Parse (α : Type) := Except DecodeError (α × List Byte)

/-- The next byte. -/
def takeByte : List Byte → Parse Byte
  | b :: rest => .ok (b, rest)
  | [] => .error .truncated

/-- The next two bytes, least significant first (R86). -/
def takeWord : List Byte → Parse Word
  | b0 :: b1 :: rest => .ok (b1 ++ b0, rest)
  | _ => .error .truncated

/-- The next four bytes, least significant first (R86). -/
def takeDWord : List Byte → Parse DWord
  | b0 :: b1 :: b2 :: b3 :: rest => .ok (b3 ++ b2 ++ b1 ++ b0, rest)
  | _ => .error .truncated

/-- Apply `f` to the value read. -/
def Parse.map {α β : Type} (f : α → β) : Parse α → Parse β
  | .ok (a, rest) => .ok (f a, rest)
  | .error e => .error e

/-! ## Prefixes -/

/-- The prefix a byte is, of those the source gives a meaning (R88, R89, R90). -/
def pfxOf (b : Byte) : Option Pfx :=
  match b.toNat with
  | 0x26 => some (.seg .es)
  | 0x2E => some (.seg .cs)
  | 0x36 => some (.seg .ss)
  | 0x3E => some (.seg .ds)
  | 0x64 => some (.seg .fs)
  | 0x65 => some (.seg .gs)
  | 0x67 => some .addrSize
  | 0xF0 => some .lock
  | _ => none

/-- The byte of a prefix. -/
def Pfx.byte : Pfx → Byte
  | .seg .es => 0x26
  | .seg .cs => 0x2E
  | .seg .ss => 0x36
  | .seg .ds => 0x3E
  | .seg .fs => 0x64
  | .seg .gs => 0x65
  | .addrSize => 0x67
  | .lock => 0xF0

/-- Prefixes the source says nothing about: 66h, F2h, F3h (R91). -/
def pfxRefused (b : Byte) : Bool :=
  b == 0x66 || b == 0xF2 || b == 0xF3

/-- The run of prefix bytes at the front (the loop of R100); 66h, F2h and F3h end it with a refusal (R91). -/
def takePrefixes : List Byte → Parse Prefixes
  | [] => .error .truncated
  | b :: rest =>
    if pfxRefused b then .error (.pfxNotInSource b)
    else match pfxOf b with
      | some x => Parse.map (x :: ·) (takePrefixes rest)
      | none => .ok ([], b :: rest)

/-- The address size the decoder reads a memory operand with: 67h selects the other one, however often it stands
(R89, R100: `asize <- other(default_addr_size)`). -/
def decodeSize (dflt : AddrSize) (p : Prefixes) : AddrSize :=
  if p.contains .addrSize then dflt.other else dflt

/-! ## ModRM, SIB, displacement -/

/-- The displacement that mod 00, 01 or 10 announces with 32-bit addressing (R83). -/
def takeDisp32 (mod : BitVec 2) (bs : List Byte) : Parse Disp32 :=
  if mod = 0 then .ok (.none, bs)
  else if mod = 1 then Parse.map .d8 (takeByte bs)
  else Parse.map .d32 (takeDWord bs)

/-- The displacement that mod 00, 01 or 10 announces with 16-bit addressing (R83). -/
def takeDisp16 (mod : BitVec 2) (bs : List Byte) : Parse Disp16 :=
  if mod = 0 then .ok (.none, bs)
  else if mod = 1 then Parse.map .d8 (takeByte bs)
  else Parse.map .d16 (takeWord bs)

/-- A SIB byte and what follows it (R85). -/
def takeSib (mod : BitVec 2) : List Byte → Parse Mem32
  | [] => .error .truncated
  | sib :: bs =>
    if rmField sib = 5 ∧ mod = 0 then
      Parse.map (.sibAbs (modField sib) (sibIndex (regField sib))) (takeDWord bs)
    else
      Parse.map (.sib (modField sib) (sibIndex (regField sib)) (Gpr.ofBits (rmField sib))) (takeDisp32 mod bs)

/-- A memory operand with 32-bit addressing, mod other than 11b (R83). -/
def takeMem32 (mod : BitVec 2) (rm : BitVec 3) (bs : List Byte) : Parse Mem32 :=
  if rm = 4 then takeSib mod bs
  else if rm = 5 ∧ mod = 0 then Parse.map .abs (takeDWord bs)
  else Parse.map (.base (Gpr.ofBits rm)) (takeDisp32 mod bs)

/-- A memory operand with 16-bit addressing, mod other than 11b (R83). -/
def takeMem16 (mod : BitVec 2) (rm : BitVec 3) (bs : List Byte) : Parse Mem16 :=
  if rm = 6 ∧ mod = 0 then Parse.map .abs (takeWord bs)
  else Parse.map (.based (Base16.ofBits rm)) (takeDisp16 mod bs)

/-- ModRM and what follows it: the reg field and the `r/m` operand, `ofBits` reading a register of the operand's kind
(R81, R83). -/
def takeRM {R : Type} (ofBits : BitVec 3 → R) (size : AddrSize) : List Byte → Parse (BitVec 3 × RM R)
  | [] => .error .truncated
  | m :: bs =>
    if modField m = 3 then .ok ((regField m, .reg (ofBits (rmField m))), bs)
    else match size with
      | .a32 => Parse.map (fun x => (regField m, .mem (.a32 x))) (takeMem32 (modField m) (rmField m) bs)
      | .a16 => Parse.map (fun x => (regField m, .mem (.a16 x))) (takeMem16 (modField m) (rmField m) bs)

/-! ## The opcode table (R92, R95) -/

/-- The rows of format F1: the second opcode byte and the instruction. -/
def f1Table : List (Byte × (Prefixes → MmReg → RM MmReg → Instr)) :=
  [(0x60, .punpcklbw),
   (0x61, .punpcklwd),
   (0x62, .punpckldq),
   (0x63, .packsswb),
   (0x64, .pcmpgtb),
   (0x65, .pcmpgtw),
   (0x66, .pcmpgtd),
   (0x67, .packuswb),
   (0x68, .punpckhbw),
   (0x69, .punpckhwd),
   (0x6A, .punpckhdq),
   (0x6B, .packssdw),
   (0x6F, .movqLoad),
   (0x74, .pcmpeqb),
   (0x75, .pcmpeqw),
   (0x76, .pcmpeqd),
   (0xD1, .psrlw),
   (0xD2, .psrld),
   (0xD3, .psrlq),
   (0xD5, .pmullw),
   (0xD8, .psubusb),
   (0xD9, .psubusw),
   (0xDB, .pand),
   (0xDC, .paddusb),
   (0xDD, .paddusw),
   (0xDF, .pandn),
   (0xE1, .psraw),
   (0xE2, .psrad),
   (0xE5, .pmulhw),
   (0xE8, .psubsb),
   (0xE9, .psubsw),
   (0xEB, .por),
   (0xEC, .paddsb),
   (0xED, .paddsw),
   (0xEF, .pxor),
   (0xF1, .psllw),
   (0xF2, .pslld),
   (0xF3, .psllq),
   (0xF5, .pmaddwd),
   (0xF8, .psubb),
   (0xF9, .psubw),
   (0xFA, .psubd),
   (0xFC, .paddb),
   (0xFD, .paddw),
   (0xFE, .paddd)]

/-- The rows of format F4: the second opcode byte, the digit in ModRM.reg, and the instruction (R95). -/
def shiftTable : List ((Byte × BitVec 3) × (Prefixes → MmReg → Byte → Instr)) :=
  [((0x71, 2), .psrlwImm),
   ((0x71, 4), .psrawImm),
   ((0x71, 6), .psllwImm),
   ((0x72, 2), .psrldImm),
   ((0x72, 4), .psradImm),
   ((0x72, 6), .pslldImm),
   ((0x73, 2), .psrlqImm),
   ((0x73, 6), .psllqImm)]

/-- Format F4 after the opcode bytes (R81, R100): a ModRM byte with mod 11b and an assigned digit, then imm8. -/
def takeShift (p : Prefixes) (op : Byte) : List Byte → Parse Instr
  | [] => .error .truncated
  | m :: bs =>
    if modField m = 3 then
      match shiftTable.lookup (op, regField m) with
      | some mk => Parse.map (mk p (MmReg.ofBits (rmField m))) (takeByte bs)
      | none => .error (.unassignedShift op (regField m))
    else .error (.shiftWithMemory op)

/-- What follows the opcode byte 0Fh: the second opcode byte selects the row (R92), CPUID besides (R210). -/
def takeOpcode (dflt : AddrSize) (p : Prefixes) : List Byte → Parse Instr
  | [] => .error .truncated
  | op :: bs =>
    if op = 0x77 then .ok (.emms p, bs)
    else if op = 0xA2 then
      if p.contains .lock then .error .lockOnCpuid else .ok (.cpuid p, bs)
    else if op = 0x6E then
      Parse.map (fun x => .movdLoad p (MmReg.ofBits x.1) x.2) (takeRM Gpr.ofBits (decodeSize dflt p) bs)
    else if op = 0x7E then
      Parse.map (fun x => .movdStore p x.2 (MmReg.ofBits x.1)) (takeRM Gpr.ofBits (decodeSize dflt p) bs)
    else if op = 0x7F then
      Parse.map (fun x => .movqStore p x.2 (MmReg.ofBits x.1)) (takeRM MmReg.ofBits (decodeSize dflt p) bs)
    else if op = 0x71 ∨ op = 0x72 ∨ op = 0x73 then takeShift p op bs
    else match f1Table.lookup op with
      | some mk => Parse.map (fun x => mk p (MmReg.ofBits x.1) x.2) (takeRM MmReg.ofBits (decodeSize dflt p) bs)
      | none => .error (.unassignedOpcode op)

/-- What follows the prefixes: the first opcode byte is 0Fh (R80, R82). -/
def takeBody (dflt : AddrSize) (p : Prefixes) : List Byte → Parse Instr
  | [] => .error .truncated
  | b :: bs => if b = 0x0F then takeOpcode dflt p bs else .error (.notTwoByteOpcode b)

/-- An instruction of at most 15 bytes, of the `avail` bytes at hand (R91). -/
def checkLength (avail : Nat) : Parse Instr → Parse Instr
  | .ok (i, rest) => if avail - rest.length ≤ Config.maxInstrBytes then .ok (i, rest) else .error .tooLong
  | .error e => .error e

/-- The decode procedure (R100): the instruction at the front of the bytes and the bytes after it. -/
def decode (dflt : AddrSize) (bs : List Byte) : Parse Instr :=
  match takePrefixes bs with
  | .ok (p, rest) => checkLength bs.length (takeBody dflt p rest)
  | .error e => .error e

/-! ## Encoder -/

/-- The two bytes of a word, least significant first (R86). -/
def wordBytes (w : Word) : List Byte := [w.extractLsb' 0 8, w.extractLsb' 8 8]

/-- The four bytes of a doubleword, least significant first (R86). -/
def dwordBytes (w : DWord) : List Byte :=
  [w.extractLsb' 0 8, w.extractLsb' 8 8, w.extractLsb' 16 8, w.extractLsb' 24 8]

/-- The mod field and the bytes of a displacement (R83). -/
def encDisp32 : Disp32 → BitVec 2 × List Byte
  | .none => (0, [])
  | .d8 d => (1, [d])
  | .d32 d => (2, dwordBytes d)

/-- The mod field and the bytes of a displacement (R83). -/
def encDisp16 : Disp16 → BitVec 2 × List Byte
  | .none => (0, [])
  | .d8 d => (1, [d])
  | .d16 d => (2, wordBytes d)

/-- mod, rm and the bytes after ModRM of a memory operand (R83, R85). -/
def encMem : MemOp → BitVec 2 × BitVec 3 × List Byte
  | .a32 (.abs d) => (0, 5, dwordBytes d)
  | .a32 (.base r d) => ((encDisp32 d).1, r.bits, (encDisp32 d).2)
  | .a32 (.sib ss idx b d) => ((encDisp32 d).1, 4, packModRM ss (sibIndexBits idx) b.bits :: (encDisp32 d).2)
  | .a32 (.sibAbs ss idx d) => (0, 4, packModRM ss (sibIndexBits idx) 5 :: dwordBytes d)
  | .a16 (.abs d) => (0, 6, wordBytes d)
  | .a16 (.based b d) => ((encDisp16 d).1, b.bits, (encDisp16 d).2)

/-- ModRM and what follows it, `bits` numbering the operand's registers. -/
def encRM {R : Type} (bits : R → BitVec 3) (reg : BitVec 3) : RM R → List Byte
  | .reg r => [packModRM 3 reg (bits r)]
  | .mem m => packModRM (encMem m).1 reg (encMem m).2.1 :: (encMem m).2.2

/-- Prefixes, 0Fh, the second opcode byte, the rest (R80). -/
def encHead (p : Prefixes) (op : Byte) (rest : List Byte) : List Byte :=
  p.map Pfx.byte ++ 0x0F :: op :: rest

/-- Format F1 (R81). -/
def encF1 (p : Prefixes) (op : Byte) (dst : MmReg) (src : RM MmReg) : List Byte :=
  encHead p op (encRM MmReg.bits dst.bits src)

/-- Format F4 (R81, R87). -/
def encF4 (p : Prefixes) (op : Byte) (digit : BitVec 3) (dst : MmReg) (imm : Byte) : List Byte :=
  encHead p op [packModRM 3 digit dst.bits, imm]

/-- The bytes of an instruction, by its row of R92 and R95. -/
def encode : Instr → List Byte
  | .punpcklbw p dst src => encF1 p 0x60 dst src
  | .punpcklwd p dst src => encF1 p 0x61 dst src
  | .punpckldq p dst src => encF1 p 0x62 dst src
  | .packsswb p dst src => encF1 p 0x63 dst src
  | .pcmpgtb p dst src => encF1 p 0x64 dst src
  | .pcmpgtw p dst src => encF1 p 0x65 dst src
  | .pcmpgtd p dst src => encF1 p 0x66 dst src
  | .packuswb p dst src => encF1 p 0x67 dst src
  | .punpckhbw p dst src => encF1 p 0x68 dst src
  | .punpckhwd p dst src => encF1 p 0x69 dst src
  | .punpckhdq p dst src => encF1 p 0x6A dst src
  | .packssdw p dst src => encF1 p 0x6B dst src
  | .movdLoad p dst src => encHead p 0x6E (encRM Gpr.bits dst.bits src)
  | .movqLoad p dst src => encF1 p 0x6F dst src
  | .psrlwImm p dst imm => encF4 p 0x71 2 dst imm
  | .psrawImm p dst imm => encF4 p 0x71 4 dst imm
  | .psllwImm p dst imm => encF4 p 0x71 6 dst imm
  | .psrldImm p dst imm => encF4 p 0x72 2 dst imm
  | .psradImm p dst imm => encF4 p 0x72 4 dst imm
  | .pslldImm p dst imm => encF4 p 0x72 6 dst imm
  | .psrlqImm p dst imm => encF4 p 0x73 2 dst imm
  | .psllqImm p dst imm => encF4 p 0x73 6 dst imm
  | .pcmpeqb p dst src => encF1 p 0x74 dst src
  | .pcmpeqw p dst src => encF1 p 0x75 dst src
  | .pcmpeqd p dst src => encF1 p 0x76 dst src
  | .emms p => encHead p 0x77 []
  | .movdStore p dst src => encHead p 0x7E (encRM Gpr.bits src.bits dst)
  | .movqStore p dst src => encHead p 0x7F (encRM MmReg.bits src.bits dst)
  | .psrlw p dst src => encF1 p 0xD1 dst src
  | .psrld p dst src => encF1 p 0xD2 dst src
  | .psrlq p dst src => encF1 p 0xD3 dst src
  | .pmullw p dst src => encF1 p 0xD5 dst src
  | .psubusb p dst src => encF1 p 0xD8 dst src
  | .psubusw p dst src => encF1 p 0xD9 dst src
  | .pand p dst src => encF1 p 0xDB dst src
  | .paddusb p dst src => encF1 p 0xDC dst src
  | .paddusw p dst src => encF1 p 0xDD dst src
  | .pandn p dst src => encF1 p 0xDF dst src
  | .psraw p dst src => encF1 p 0xE1 dst src
  | .psrad p dst src => encF1 p 0xE2 dst src
  | .pmulhw p dst src => encF1 p 0xE5 dst src
  | .psubsb p dst src => encF1 p 0xE8 dst src
  | .psubsw p dst src => encF1 p 0xE9 dst src
  | .por p dst src => encF1 p 0xEB dst src
  | .paddsb p dst src => encF1 p 0xEC dst src
  | .paddsw p dst src => encF1 p 0xED dst src
  | .pxor p dst src => encF1 p 0xEF dst src
  | .psllw p dst src => encF1 p 0xF1 dst src
  | .pslld p dst src => encF1 p 0xF2 dst src
  | .psllq p dst src => encF1 p 0xF3 dst src
  | .pmaddwd p dst src => encF1 p 0xF5 dst src
  | .psubb p dst src => encF1 p 0xF8 dst src
  | .psubw p dst src => encF1 p 0xF9 dst src
  | .psubd p dst src => encF1 p 0xFA dst src
  | .paddb p dst src => encF1 p 0xFC dst src
  | .paddw p dst src => encF1 p 0xFD dst src
  | .paddd p dst src => encF1 p 0xFE dst src
  | .cpuid p => encHead p 0xA2 []

/-! ## Length (R99) -/

/-- `ilen` of a form with an `r/m` operand: prefixes, two opcode bytes, ModRM, SIB, displacement (R99). -/
def lenRM {R : Type} (p : Prefixes) : RM R → Nat
  | .reg _ => p.length + 2 + 1
  | .mem m => p.length + 2 + 1 + m.bytes

/-- `ilen` of a shift-by-immediate form: prefixes, two opcode bytes, ModRM, imm8 (R99). -/
def lenImm (p : Prefixes) : Nat := p.length + 2 + 1 + 1

/-- `ilen` of EMMS and CPUID: prefixes and two opcode bytes (R99). -/
def lenBare (p : Prefixes) : Nat := p.length + 2

/-- `ilen` of an instruction (R99). -/
def Instr.len : Instr → Nat
  | .punpcklbw p _ src => lenRM p src
  | .punpcklwd p _ src => lenRM p src
  | .punpckldq p _ src => lenRM p src
  | .packsswb p _ src => lenRM p src
  | .pcmpgtb p _ src => lenRM p src
  | .pcmpgtw p _ src => lenRM p src
  | .pcmpgtd p _ src => lenRM p src
  | .packuswb p _ src => lenRM p src
  | .punpckhbw p _ src => lenRM p src
  | .punpckhwd p _ src => lenRM p src
  | .punpckhdq p _ src => lenRM p src
  | .packssdw p _ src => lenRM p src
  | .movdLoad p _ src => lenRM p src
  | .movqLoad p _ src => lenRM p src
  | .psrlwImm p _ _ => lenImm p
  | .psrawImm p _ _ => lenImm p
  | .psllwImm p _ _ => lenImm p
  | .psrldImm p _ _ => lenImm p
  | .psradImm p _ _ => lenImm p
  | .pslldImm p _ _ => lenImm p
  | .psrlqImm p _ _ => lenImm p
  | .psllqImm p _ _ => lenImm p
  | .pcmpeqb p _ src => lenRM p src
  | .pcmpeqw p _ src => lenRM p src
  | .pcmpeqd p _ src => lenRM p src
  | .emms p => lenBare p
  | .movdStore p dst _ => lenRM p dst
  | .movqStore p dst _ => lenRM p dst
  | .psrlw p _ src => lenRM p src
  | .psrld p _ src => lenRM p src
  | .psrlq p _ src => lenRM p src
  | .pmullw p _ src => lenRM p src
  | .psubusb p _ src => lenRM p src
  | .psubusw p _ src => lenRM p src
  | .pand p _ src => lenRM p src
  | .paddusb p _ src => lenRM p src
  | .paddusw p _ src => lenRM p src
  | .pandn p _ src => lenRM p src
  | .psraw p _ src => lenRM p src
  | .psrad p _ src => lenRM p src
  | .pmulhw p _ src => lenRM p src
  | .psubsb p _ src => lenRM p src
  | .psubsw p _ src => lenRM p src
  | .por p _ src => lenRM p src
  | .paddsb p _ src => lenRM p src
  | .paddsw p _ src => lenRM p src
  | .pxor p _ src => lenRM p src
  | .psllw p _ src => lenRM p src
  | .pslld p _ src => lenRM p src
  | .psllq p _ src => lenRM p src
  | .pmaddwd p _ src => lenRM p src
  | .psubb p _ src => lenRM p src
  | .psubw p _ src => lenRM p src
  | .psubd p _ src => lenRM p src
  | .paddb p _ src => lenRM p src
  | .paddw p _ src => lenRM p src
  | .paddd p _ src => lenRM p src
  | .cpuid p => lenBare p

/-! ## The sample instructions (R214) -/

/-- The sample instruction at the front of the bytes; they assume a 32-bit code segment (R214). -/
def decodeHost (dflt : AddrSize) (bs : List Byte) : Option (HostInstr × List Byte) :=
  match dflt, bs with
  | .a16, _ => none
  | .a32, [] => none
  | .a32, b :: rest =>
    match b.toNat, rest with
    | 0x9C, rest => some (.pushfd, rest)
    | 0x58, rest => some (.popEax, rest)
    | 0x8B, m :: rest => if m = 0xD8 then some (.movEbxEax, rest) else none
    | 0x35, rest => (takeDWord rest).toOption.map fun x => (.xorEax x.1, x.2)
    | 0x50, rest => some (.pushEax, rest)
    | 0x9D, rest => some (.popfd, rest)
    | 0x3B, m :: rest => if m = 0xC3 then some (.cmpEaxEbx, rest) else none
    | 0x74, cb :: rest => some (.jz cb, rest)
    | 0xB8, rest => (takeDWord rest).toOption.map fun x => (.movEax x.1, x.2)
    | 0xF7, m :: rest =>
      if m = 0xC2 then (takeDWord rest).toOption.map fun x => (.testEdx x.1, x.2) else none
    | 0x75, cb :: rest => some (.jnz cb, rest)
    | _, _ => none

/-- The length of a sample instruction (R214, the column "bytes"). -/
def HostInstr.len : HostInstr → Nat
  | .pushfd => 1
  | .popEax => 1
  | .movEbxEax => 2
  | .xorEax _ => 5
  | .pushEax => 1
  | .popfd => 1
  | .cmpEaxEbx => 2
  | .jz _ => 2
  | .movEax _ => 5
  | .testEdx _ => 6
  | .jnz _ => 2

/-! ## Words of spec/opcode_table.json -/

/-- The bytes of a table word: "the first `width_bytes` bytes of the instruction ... are read as one number with the first
byte most significant" (R92), then bytes of zeros up to the longest instruction (R91). Log entry 25. -/
def tableBytes (nbits w : Nat) : List Byte :=
  (List.range (nbits / 8)).map (fun k => BitVec.ofNat 8 (w >>> (8 * (nbits / 8 - 1 - k)))) ++
    List.replicate (Config.maxInstrBytes - nbits / 8) 0

/-- The address size the table words are read with, that of State.reset's code segment. Log entry 25. -/
def tableAddrSize : AddrSize := .a16

/-- The instruction the decoder reads from a table word. -/
def decodeTableWord (nbits w : Nat) : Option Instr :=
  (decode tableAddrSize (tableBytes nbits w)).toOption.map Prod.fst

end Sys2Proof
end

