-- ==== Sys2Proof/Machine/State.lean ====
section
/-! DEFINITION. The machine's state as plain data (10_state.md), the reasons a step can stop, and the state after reset. -/

namespace Sys2Proof.Machine

open Sys2Proof

/-! ## Register files -/

/-- The eight 80-bit floating-point registers on which the MMX registers are mapped: MM[n] is bits 63:0 of register n,
physical numbering (R20, R21, R22). -/
structure FpRegs where
  r0 : BitVec 80
  r1 : BitVec 80
  r2 : BitVec 80
  r3 : BitVec 80
  r4 : BitVec 80
  r5 : BitVec 80
  r6 : BitVec 80
  r7 : BitVec 80
  deriving DecidableEq, Repr

/-- The eight general registers (R29). -/
structure GprRegs where
  eax : DWord
  ecx : DWord
  edx : DWord
  ebx : DWord
  esp : DWord
  ebp : DWord
  esi : DWord
  edi : DWord
  deriving DecidableEq, Repr

/-! ## Segments and translation -/

/-- A segment register as the environment's `Translate` uses it (R33, R57). The spec gives no format (91 N14): the
fields are the model's, log entry 7. No instruction of the model reads the selector, log entry 41. -/
structure Segment where
  selector : Word
  base : DWord
  limit : DWord
  readable : Bool
  writable : Bool
  deriving DecidableEq, Repr

/-- The six segment registers (R33). -/
structure SegRegs where
  cs : Segment
  ss : Segment
  ds : Segment
  es : Segment
  fs : Segment
  gs : Segment
  deriving DecidableEq, Repr

/-- A region of linear addresses that the environment's paging maps: `size` bytes from `base` to physical addresses from
`phys` on; `writable`: a write is allowed; `user`: CPL 3 may use it (R57, R225). The source gives no page format, so a
region has any size. Log entry 7. -/
structure PageRegion where
  base : Nat
  size : Nat
  phys : Nat
  writable : Bool
  user : Bool
  deriving DecidableEq, Repr

/-- A range of physical byte addresses. -/
structure AddrRange where
  base : Nat
  size : Nat
  deriving DecidableEq, Repr

/-- The kind of an access: `Translate`'s `kind` (R57), and the fetch of an instruction byte (R38, R99). -/
inductive AccessKind where
  | read
  | write
  | fetch
  deriving DecidableEq, Repr

/-- The failures that the environment's `Translate` may answer with (R57): through the stack segment, general protection,
page fault. -/
inductive TranslateFailure where
  | stack
  | generalProtection
  | page
  deriving DecidableEq, Repr

/-- An answer of `Translate`: the physical byte addresses in offset order, or a failure (R57). -/
inductive TranslateAnswer where
  | addrs (ps : List Nat)
  | fails (f : TranslateFailure)
  deriving DecidableEq, Repr

/-- One value of the environment's `Translate` (R57): its four arguments and what it answers for them. `Translate` is a
parameter (R8, R64, D22), and its arguments are finitely many, so a list of these can give any `Translate`; for arguments
without an entry the segments and page regions give the answer, log entry 7. -/
structure TranslateEntry where
  seg : Seg
  off : DWord
  n : Nat
  kind : AccessKind
  answer : TranslateAnswer
  deriving DecidableEq, Repr

/-- The operating modes (R34, R239). -/
inductive Mode where
  | real
  | v86
  | prot
  deriving DecidableEq, Repr

/-! ## Exceptions and the environment -/

/-- The exceptions of Table 1 (R220), and the interrupt of `ne0_policy` = `external_interrupt` with the platform's vector
(R226). General protection and segment overrun are the one vector 13. -/
inductive ExcVector where
  | invalidOpcode
  | deviceNotAvailable
  | stack
  | generalProtection
  | pageFault
  | floatingPoint
  | alignmentCheck
  | external (vector : Nat)
  deriving DecidableEq, Repr

/-- What a step that raises hands to the environment: `Exception(vector, pc)` (R233). -/
structure ExcOutcome where
  vector : ExcVector
  pc : DWord
  deriving DecidableEq, Repr

/-- Who has control between two steps. `running`: the program. `environment`: an exception was raised and the
environment's handler has control (R233). `ferrWait`: FERR# was asserted with CR0.NE = 0 and `ne0_policy` is `stuck`
(R226). -/
inductive Control where
  | running
  | environment (e : ExcOutcome)
  | ferrWait
  deriving DecidableEq, Repr

/-- What a save area of a task holds: MM[0..7] with the rest of their registers, FTW, TOP, and of "the rest of the x87
state" (R215, R241) what State holds, FPpending: it is bit ES of the status word (R35), which FSAVE and FRSTOR move
(R40). That it travels is the model's reading, DEDUCED, log entry 34. -/
structure FpImage where
  fpr : FpRegs
  ftw : Word
  top : BitVec 3
  fpPending : Bool
  deriving DecidableEq, Repr

/-- The operating system's side of the interrupt-7 protocol (R241): the running task, the task that last used the MMX/FP
registers, and the save area of each task. -/
structure TaskTable where
  current : Nat
  owner : Nat
  areas : List (Nat × FpImage)
  deriving DecidableEq, Repr

/-! ## Memory -/

/-- Physical memory: address and byte, addresses strictly rising, no entry equal to what an unlisted address reads as
(R38). -/
abbrev Memory := List Host.Cell

/-- The canonical form of memory. -/
abbrev Memory.wf (m : Memory) : Prop :=
  m.Pairwise (fun x y => x.1 < y.1) ∧ ∀ c ∈ m, c.2 ≠ Config.unlistedByte

/-! ## The state -/

/-- The whole state. -/
structure State where
  /-- The floating-point registers, MM[0..7] in their low 64 bits (R20 to R22). -/
  fpr : FpRegs
  /-- The floating-point tag word (R26). -/
  ftw : Word
  /-- The floating-point top-of-stack field (R36). -/
  top : BitVec 3
  /-- The general registers (R29). -/
  gpr : GprRegs
  /-- The program counter, an offset in the code segment (R30). -/
  pc : DWord
  /-- EFLAGS (R31). -/
  eflags : DWord
  /-- CR0 (R32). -/
  cr0 : DWord
  /-- The segment registers (R33). -/
  segs : SegRegs
  /-- The operating mode (R34). -/
  mode : Mode
  /-- The current privilege level (R34). -/
  cpl : Fin 4
  /-- FPpending (R35). -/
  fpPending : Bool
  /-- FERR# is asserted (R35, R226). -/
  ferr : Bool
  /-- Physical memory (R38). -/
  mem : Memory
  /-- `default_addr_size`, a property of the code segment (R8, R52). -/
  defaultAddrSize : AddrSize
  /-- The environment's paging: absent, or the mapped regions (R57). -/
  paging : Option (List PageRegion)
  /-- Values of the environment's `Translate` given one by one (R8, R57, R64). -/
  translation : List TranslateEntry
  /-- The program text fixed at launch, as physical ranges (R68, R99). -/
  text : List AddrRange
  /-- The platform's device ranges (R62). -/
  devices : List AddrRange
  /-- Who has control (R233). -/
  control : Control
  /-- The interrupt-7 protocol of the operating system, if it follows one (R241). -/
  os : Option TaskTable
  /-- The operating system emulates MMX instructions while CR0.EM = 1 (R221, R233). -/
  emulator : Bool
  /-- The open parameters a platform fixes (R8). -/
  platform : Platform
  /-- The model's own counter for free values, log entry 21. -/
  freeCount : Nat
  deriving DecidableEq, Repr

/-! ## Reasons to stop -/

/-- The faults of a step. -/
inductive Fault where
  /-- Raised by `step` after FERR# was asserted with CR0.NE = 0 and `ne0_policy` = `stuck` (R226): the spec gives no
  further step. Safe. -/
  | fpPendingStuck
  deriving DecidableEq, Repr

/-- The refusals of a step. All are safe: the model says nothing about what follows. -/
inductive Refusal where
  /-- `exec`: an instruction without a meaning in the model (there is none). -/
  | notModelled (mnemonic : String)
  /-- Decoding: the bytes at pc are no instruction of the model (R91, R97, R214). -/
  | undecodable (e : DecodeError)
  /-- Fetch: a byte of the instruction is not in the program text, not in the code segment, not mapped or in device
  space (R99, D20). -/
  | fetchOutsideText
  /-- Fetch: `pc + ilen` wraps (R30, D3). -/
  | pcOutOfRange
  /-- A store that overlaps the program text (R68, D20). -/
  | storeIntoText
  /-- An access to a device range (R62, D18). -/
  | deviceAccess
  /-- The environment has control with an exception whose handler the spec does not describe (R233). -/
  | handlerOutsideModel (v : ExcVector)
  deriving DecidableEq, Repr

/-- The answer of a step and of every meaning. -/
abbrev Result := Host.Outcome State Fault Refusal

/-! ## Reset -/

/-- The machine right after reset. The source states no reset value (R41, R260): the values of the x86 family that the
spec lists for orientation (R261, 93 G14), PRESUMED, log entry 1; MM[0..7] and EDX DESIGN CHOICE, log entries 2
and 3; memory with nothing listed; no program launched (log entry 26). -/
def State.reset : State where
  fpr := ⟨0, 0, 0, 0, 0, 0, 0, 0⟩
  ftw := 0xFFFF
  top := 0
  gpr := ⟨0, 0, 0, 0, 0, 0, 0, 0⟩
  pc := 0x0000FFF0
  eflags := 0x00000002
  cr0 := 0x60000010
  segs :=
    { cs := ⟨0xF000, 0xFFFF0000, 0xFFFF, true, true⟩
      ss := ⟨0, 0, 0xFFFF, true, true⟩
      ds := ⟨0, 0, 0xFFFF, true, true⟩
      es := ⟨0, 0, 0xFFFF, true, true⟩
      fs := ⟨0, 0, 0xFFFF, true, true⟩
      gs := ⟨0, 0, 0xFFFF, true, true⟩ }
  mode := .real
  cpl := 0
  fpPending := false
  ferr := false
  mem := []
  defaultAddrSize := .a16
  paging := none
  translation := []
  text := []
  devices := []
  control := .running
  os := none
  emulator := false
  platform := { acGate := .always, ne0Policy := .stuck, popfdMask := 0x00247FD5 }
  freeCount := 0

end Sys2Proof.Machine
end

