-- ==== Sys2Proof/Machine/Lanes.lean ====
section
/-! DEFINITION. Lane views and the arithmetic of one lane (00_scope.md R9 to R11, 47_shift.md R209). -/

namespace Sys2Proof.Machine

open Sys2Proof

/-! ## Lanes (R11) -/

/-- `v.B[i]`: bits 8i+7:8i. -/
def byteLane (v : QWord) (i : Nat) : BitVec 8 := v.extractLsb' (8 * i) 8

/-- `v.W[i]`: bits 16i+15:16i. -/
def wordLane (v : QWord) (i : Nat) : BitVec 16 := v.extractLsb' (16 * i) 16

/-- `v.D[i]`: bits 32i+31:32i. -/
def dwordLane (v : QWord) (i : Nat) : BitVec 32 := v.extractLsb' (32 * i) 32

/-- The 64-bit value with the given bytes. -/
def ofBytes (f : Nat → BitVec 8) : QWord :=
  f 7 ++ f 6 ++ f 5 ++ f 4 ++ f 3 ++ f 2 ++ f 1 ++ f 0

/-- The 64-bit value with the given words. -/
def ofWords (f : Nat → BitVec 16) : QWord := f 3 ++ f 2 ++ f 1 ++ f 0

/-- The 64-bit value with the given doublewords. -/
def ofDWords (f : Nat → BitVec 32) : QWord := f 1 ++ f 0

/-- The same operation on each pair of bytes. -/
def mapBytes (f : BitVec 8 → BitVec 8 → BitVec 8) (a b : QWord) : QWord :=
  ofBytes fun i => f (byteLane a i) (byteLane b i)

/-- The same operation on each pair of words. -/
def mapWords (f : BitVec 16 → BitVec 16 → BitVec 16) (a b : QWord) : QWord :=
  ofWords fun i => f (wordLane a i) (wordLane b i)

/-- The same operation on each pair of doublewords. -/
def mapDWords (f : BitVec 32 → BitVec 32 → BitVec 32) (a b : QWord) : QWord :=
  ofDWords fun i => f (dwordLane a i) (dwordLane b i)

/-! ## Saturation (R10) -/

/-- `SatS_N(n)`: n limited to -2^(N-1) .. 2^(N-1)-1. -/
def satS (N : Nat) (n : Int) : BitVec N :=
  BitVec.ofInt N (max (-(2 ^ (N - 1))) (min (2 ^ (N - 1) - 1) n))

/-- `SatU_N(n)`: n limited to 0 .. 2^N-1. -/
def satU (N : Nat) (n : Int) : BitVec N :=
  BitVec.ofInt N (max 0 (min (2 ^ N - 1) n))

/-! ## Add and subtract (R111 to R124) -/

/-- `bv_N(u(a) + u(b))`. -/
def addWrap {N : Nat} (a b : BitVec N) : BitVec N := BitVec.ofInt N (a.toNat + b.toNat)

/-- `SatS_N(s(a) + s(b))`. -/
def addSatS {N : Nat} (a b : BitVec N) : BitVec N := satS N (a.toInt + b.toInt)

/-- `SatU_N(u(a) + u(b))`. -/
def addSatU {N : Nat} (a b : BitVec N) : BitVec N := satU N (a.toNat + b.toNat)

/-- `bv_N(u(a) - u(b))`: destination minus source (R110). -/
def subWrap {N : Nat} (a b : BitVec N) : BitVec N := BitVec.ofInt N (a.toNat - b.toNat)

/-- `SatS_N(s(a) - s(b))`. -/
def subSatS {N : Nat} (a b : BitVec N) : BitVec N := satS N (a.toInt - b.toInt)

/-- `SatU_N(u(a) - u(b))`. -/
def subSatU {N : Nat} (a b : BitVec N) : BitVec N := satU N (a.toNat - b.toNat)

/-! ## Multiply (R130) -/

/-- The exact product of two signed words. -/
def wordProduct (a b : BitVec 16) : Int := a.toInt * b.toInt

/-! ## Compare (R145) -/

/-- All ones if the condition holds, else all zeros. -/
def laneMask (N : Nat) (c : Bool) : BitVec N := if c then BitVec.allOnes N else 0

/-- Equality of lanes (R146). -/
def laneEq {N : Nat} (a b : BitVec N) : BitVec N := laneMask N (a = b)

/-- Signed greater-than of lanes, destination against source (R149). -/
def laneGt {N : Nat} (a b : BitVec N) : BitVec N := laneMask N (b.toInt < a.toInt)

/-! ## Shift (R191, R209): the count is not reduced; a count of N or more is cut off before the shift, which gives the
same value without a large power of two -/

/-- `Shl_N(v, n)`. -/
def shl {N : Nat} (v : BitVec N) (n : Nat) : BitVec N := if n < N then v <<< n else 0

/-- `Shr_N(v, n)`. -/
def shr {N : Nat} (v : BitVec N) (n : Nat) : BitVec N := if n < N then v >>> n else 0

/-- `Sar_N(v, n)`. -/
def sar {N : Nat} (v : BitVec N) (n : Nat) : BitVec N := BitVec.ofInt N (v.toInt / 2 ^ min n N)

/-- Shift each word by the same count. -/
def shiftWords (f : BitVec 16 → Nat → BitVec 16) (a : QWord) (n : Nat) : QWord :=
  ofWords fun i => f (wordLane a i) n

/-- Shift each doubleword by the same count. -/
def shiftDWords (f : BitVec 32 → Nat → BitVec 32) (a : QWord) (n : Nat) : QWord :=
  ofDWords fun i => f (dwordLane a i) n

/-- A shift as an operation of two 64-bit operands: the count is the whole source operand, unsigned (R191). -/
def countOf (f : QWord → Nat → QWord) (a c : QWord) : QWord := f a c.toNat

end Sys2Proof.Machine
end

