-- ==== Sys2Proof/Machine/Ops.lean ====
section
/-! DEFINITION. The named operations over registers, memory, translation and exceptions (10_state.md, 20_memory.md,
60_exceptions.md). Meanings are written over these. -/

namespace Sys2Proof.Machine

open Sys2Proof

/-! ## Registers -/

/-- The 80-bit floating-point register under an MMX register (R22). -/
def FpRegs.get (f : FpRegs) : MmReg → BitVec 80
  | .mm0 => f.r0
  | .mm1 => f.r1
  | .mm2 => f.r2
  | .mm3 => f.r3
  | .mm4 => f.r4
  | .mm5 => f.r5
  | .mm6 => f.r6
  | .mm7 => f.r7

/-- Write the 80-bit register under an MMX register. -/
def FpRegs.set (f : FpRegs) (r : MmReg) (v : BitVec 80) : FpRegs :=
  match r with
  | .mm0 => { f with r0 := v }
  | .mm1 => { f with r1 := v }
  | .mm2 => { f with r2 := v }
  | .mm3 => { f with r3 := v }
  | .mm4 => { f with r4 := v }
  | .mm5 => { f with r5 := v }
  | .mm6 => { f with r6 := v }
  | .mm7 => { f with r7 := v }

/-- Read a general register (R29). -/
def GprRegs.get (g : GprRegs) : Gpr → DWord
  | .eax => g.eax
  | .ecx => g.ecx
  | .edx => g.edx
  | .ebx => g.ebx
  | .esp => g.esp
  | .ebp => g.ebp
  | .esi => g.esi
  | .edi => g.edi

/-- Write a general register, all 32 bits (R29). -/
def GprRegs.set (g : GprRegs) (r : Gpr) (v : DWord) : GprRegs :=
  match r with
  | .eax => { g with eax := v }
  | .ecx => { g with ecx := v }
  | .edx => { g with edx := v }
  | .ebx => { g with ebx := v }
  | .esp => { g with esp := v }
  | .ebp => { g with ebp := v }
  | .esi => { g with esi := v }
  | .edi => { g with edi := v }

/-- A segment register. -/
def SegRegs.get (g : SegRegs) : Seg → Segment
  | .cs => g.cs
  | .ss => g.ss
  | .ds => g.ds
  | .es => g.es
  | .fs => g.fs
  | .gs => g.gs

/-- `MM[n]`: bits 63:0 of the floating-point register (R22). -/
def State.mm (s : State) (r : MmReg) : QWord := (s.fpr.get r).extractLsb' 0 64

/-- What a write of `MM[n]` leaves in the floating-point register: bits 79:64 all ones (R22). -/
def mmImage (v : QWord) : BitVec 80 := (0xFFFF : BitVec 16) ++ v

/-- `MM[n] <- v` (R22). -/
def State.setMm (s : State) (r : MmReg) (v : QWord) : State :=
  { s with fpr := s.fpr.set r (mmImage v) }

/-- `x[i]` (R12). -/
def State.x (s : State) (r : Gpr) : DWord := s.gpr.get r

/-- `x[i] <- v` (R12). -/
def State.setX (s : State) (r : Gpr) (v : DWord) : State :=
  { s with gpr := s.gpr.set r v }

/-- CR0.EM, bit 2 (R32, D5). -/
def State.em (s : State) : Bool := s.cr0.getLsbD 2

/-- CR0.TS, bit 3 (R32, D5). -/
def State.ts (s : State) : Bool := s.cr0.getLsbD 3

/-- CR0.NE, bit 5 (R32, D5). -/
def State.ne (s : State) : Bool := s.cr0.getLsbD 5

/-- CR0.AM, bit 18 (R32, D5). -/
def State.am (s : State) : Bool := s.cr0.getLsbD 18

/-- CR0.EM as a mask. -/
def emMask : DWord := 0x00000004

/-- `CR0.EM <- 1` (R32, R218). -/
def State.setEm (s : State) : State := { s with cr0 := s.cr0 ||| emMask }

/-- `CR0.EM <- 0` (R32, R218), also for the emulation of R233. -/
def State.clearEm (s : State) : State := { s with cr0 := s.cr0 &&& ~~~emMask }

/-- CR0.TS as a mask. -/
def tsMask : DWord := 0x00000008

/-- `CR0.TS <- 1` (R241). -/
def State.setTs (s : State) : State := { s with cr0 := s.cr0 ||| tsMask }

/-- `CR0.TS <- 0` (R241). -/
def State.clearTs (s : State) : State := { s with cr0 := s.cr0 &&& ~~~tsMask }

/-- `SetTagsValid()`: FTW <- 0000h and TOP <- 0 (R27, R36). -/
def State.setTagsValid (s : State) : State := { s with ftw := 0x0000, top := 0 }

/-- `SetTagsEmpty()`: FTW <- FFFFh and TOP <- 0 (R28, R36). -/
def State.setTagsEmpty (s : State) : State := { s with ftw := 0xFFFF, top := 0 }

/-- `pc <- pc + n` (R30). -/
def State.advance (s : State) (n : Nat) : State := { s with pc := s.pc + BitVec.ofNat 32 n }

/-! ## Exceptions (R231 to R234) -/

/-- The vector number (R220). -/
def ExcVector.number : ExcVector → Nat
  | .invalidOpcode => 6
  | .deviceNotAvailable => 7
  | .stack => 12
  | .generalProtection => 13
  | .pageFault => 14
  | .floatingPoint => 16
  | .alignmentCheck => 17
  | .external n => n

/-- `raise X(n)`, taking an exception: the outcome `Exception(vector, pc)` with control in the environment and no
architectural change (R232, R233). The source describes no entry sequence (R231): log entry 5. -/
def State.raise (s : State) (v : ExcVector) : State :=
  { s with control := .environment { vector := v, pc := s.pc } }

/-- Return from a handler: the program has control again, at the instruction that raised (R234). -/
def State.returnFromHandler (s : State) (e : ExcOutcome) : State :=
  { s with control := .running, pc := e.pc }

/-- FERR# <- asserted (R226). -/
def State.assertFerr (s : State) : State := { s with ferr := true }

/-- Why an operand access ends the instruction: it raises (R57, R60), or it is one the model refuses (R62, R68). -/
inductive Stop where
  | raise (v : ExcVector)
  | refuse (r : Refusal)
  deriving DecidableEq, Repr

/-- Go on with the value of an access, or end the instruction as the access says. -/
def withAccess {α : Type} (s : State) (a : Except Stop α) (k : α → Result) : Result :=
  match a with
  | .ok v => k v
  | .error (.raise v) => .next (s.raise v)
  | .error (.refuse r) => .refused r

/-- A floating-point exception is pending (R226): FERR# is asserted, then interrupt 16 if CR0.NE = 1, else `ne0_policy`.
`stop` answers for an instruction that ends in the state given, `go` for one that goes on from it. -/
def fpReport {β : Type} (s : State) (stop go : State → β) : β :=
  let s' := s.assertFerr
  if s.ne then stop (s'.raise .floatingPoint)
  else match s.platform.ne0Policy with
    | .stuck => stop { s' with control := .ferrWait }
    | .externalInterrupt n => stop (s'.raise (.external n))
    | .ignore => go s'

/-- The pending exception as an MMX instruction meets it (R226): it ends there, or the instruction `k` goes on. -/
def fpPendingEvent (s : State) (k : State → Result) : Result := fpReport s .next k

/-- `MMXCheck()` (R228): LOCK, EM, TS, pending floating-point exception, in this order; then the instruction `k`. -/
def mmxCheck (p : Prefixes) (s : State) (k : State → Result) : Result :=
  if p.contains .lock then .next (s.raise .invalidOpcode)
  else if s.em then .next (s.raise .invalidOpcode)
  else if s.ts then .next (s.raise .deviceNotAvailable)
  else if s.fpPending then fpPendingEvent s k
  else k s

/-! ## Memory -/

/-- One byte of memory. -/
def Memory.read : Memory → Nat → Byte
  | [], _ => Config.unlistedByte
  | c :: m, a => if c.1 = a then c.2 else Memory.read m a

/-- Put a cell in its place among rising addresses. -/
def Memory.insert (c : Host.Cell) : Memory → Memory
  | [] => [c]
  | d :: m => if c.1 < d.1 then c :: d :: m else d :: Memory.insert c m

/-- Write one byte, keeping the canonical form: an entry equal to what an unlisted address reads as is not kept. -/
def Memory.write (m : Memory) (a : Nat) (v : Byte) : Memory :=
  let rest := m.filter (fun c => c.1 != a)
  if v = Config.unlistedByte then rest else Memory.insert (a, v) rest

/-- The bytes at the addresses, in their order. -/
def Memory.readList (m : Memory) (addrs : List Nat) : List Byte := addrs.map m.read

/-- Write byte k at address k, for k = 0, 1, ... in this order (R55). -/
def Memory.writeList (m : Memory) : List (Nat × Byte) → Memory
  | [] => m
  | c :: cs => Memory.writeList (m.write c.1 c.2) cs

/-- The number that bytes denote, least significant first (R54, R58). -/
def leValue : List Byte → Nat
  | [] => 0
  | b :: bs => b.toNat + 256 * leValue bs

/-- The `n` low bytes of a number, least significant first: byte k is bits 8k+7:8k (R55, R58). -/
def leBytes (n v : Nat) : List Byte :=
  (List.range n).map fun k => BitVec.ofNat 8 (v >>> (8 * k))

/-- An address lies in a range. -/
def AddrRange.contains (r : AddrRange) (a : Nat) : Bool :=
  r.base ≤ a && a < r.base + r.size

/-- An address lies in one of the ranges. -/
def inRanges (rs : List AddrRange) (a : Nat) : Bool := rs.any (·.contains a)

/-! ## Translate (R57), the environment's: values given one by one, else its segments and paging (log entry 7) -/

/-- The exception of an operand beyond its segment: 12 through SS, 13 through another segment (R223, R224, D27). -/
def limitException (seg : Seg) : ExcVector :=
  if seg = .ss then .stack else .generalProtection

/-- The access rights of a segment allow the kind of access (R57: "a write to a read-only segment"). -/
def Segment.allows (g : Segment) : AccessKind → Bool
  | .read => g.readable
  | .write => g.writable
  | .fetch => true

/-- One more than the largest offset an operand byte may have whatever `Translate` is: 0FFFFh in Real and V86 mode (R57);
FFFF_FFFFh in Protected mode, "outside every segment limit the environment can grant" (R70). -/
def offsetBound : Mode → Nat
  | .real => 2 ^ 16
  | .v86 => 2 ^ 16
  | .prot => 2 ^ 32

/-- The exception of a failure of `Translate` (R57). -/
def TranslateFailure.vector : TranslateFailure → ExcVector
  | .stack => .stack
  | .generalProtection => .generalProtection
  | .page => .pageFault

/-- The failures that R57 has in a mode, once the offset is in its bound: 12 through SS in every mode, 13 in Protected
mode, 14 in V86 and Protected mode. -/
def TranslateFailure.possible (mode : Mode) (seg : Seg) : TranslateFailure → Bool
  | .stack => seg = .ss
  | .generalProtection => mode = .prot
  | .page => mode != .real

/-- The answers that R57 allows `Translate` for n bytes: n addresses, or a failure the mode has. -/
def TranslateAnswer.allowed (mode : Mode) (seg : Seg) (n : Nat) : TranslateAnswer → Bool
  | .addrs ps => ps.length = n
  | .fails f => f.possible mode seg

/-- The answer that the environment gives for these arguments one by one: that of the first entry for them that R57
allows. -/
def translateGiven (s : State) (seg : Seg) (off : DWord) (n : Nat) (kind : AccessKind) : Option TranslateAnswer :=
  (s.translation.find? fun e =>
    e.seg = seg && e.off = off && e.n = n && e.kind = kind && e.answer.allowed s.mode seg n).map (·.answer)

/-- The segment's limit and then its rights for the n bytes from `off` on, in Protected mode (R57). -/
def segmentCheck (s : State) (seg : Seg) (off : DWord) (n : Nat) (kind : AccessKind) : Option ExcVector :=
  match s.mode with
  | .real => none
  | .v86 => none
  | .prot =>
    if off.toNat + n ≤ (s.segs.get seg).limit.toNat + 1 then
      if (s.segs.get seg).allows kind then none else some .generalProtection
    else some (limitException seg)

/-- The linear address of byte k of an operand: segment base plus offset modulo 2^32. Log entry 8. -/
def linearAddr (s : State) (seg : Seg) (off : DWord) (k : Nat) : Nat :=
  ((s.segs.get seg).base + off + BitVec.ofNat 32 k).toNat

/-- The access is made at privilege level 3: V86 mode or CPL 3 (R34, R239). -/
def State.userLevel (s : State) : Bool := s.mode = .v86 || s.cpl = 3

/-- A region maps the linear address for this kind of access and privilege level (R225). -/
def PageRegion.permits (user : Bool) (kind : AccessKind) (lin : Nat) (r : PageRegion) : Bool :=
  r.base ≤ lin && lin < r.base + r.size && (r.user || !user) && (r.writable || kind != .write)

/-- The physical address of a linear address, or `none` for a page fault. Real mode has no paging (R225). -/
def physAddr (s : State) (kind : AccessKind) (lin : Nat) : Option Nat :=
  match s.mode, s.paging with
  | .real, _ => some lin
  | _, none => some lin
  | _, some rs => (rs.find? (PageRegion.permits s.userLevel kind lin)).map fun r => r.phys + (lin - r.base)

/-- The physical addresses of a list of linear addresses, or `none` if one page-faults. -/
def physAddrs (s : State) (kind : AccessKind) : List Nat → Option (List Nat)
  | [] => some []
  | l :: ls =>
    match physAddr s kind l, physAddrs s kind ls with
    | some p, some ps => some (p :: ps)
    | _, _ => none

/-- `Translate` by the segments and page regions of State, for arguments without an entry. -/
def translateByTables (s : State) (seg : Seg) (off : DWord) (n : Nat) (kind : AccessKind) :
    Except ExcVector (List Nat) :=
  match segmentCheck s seg off n kind with
  | some v => .error v
  | none =>
    match physAddrs s kind ((List.range n).map (linearAddr s seg off)) with
    | some ps => .ok ps
    | none => .error .pageFault

/-- `Translate(seg, off, n, kind)`: the n physical byte addresses in offset order, or the exception (R57, R229). -/
def translateAddr (s : State) (seg : Seg) (off : DWord) (n : Nat) (kind : AccessKind) : Except ExcVector (List Nat) :=
  if offsetBound s.mode < off.toNat + n then .error (limitException seg)
  else match translateGiven s seg off n kind with
    | some (.addrs ps) => .ok ps
    | some (.fails f) => .error f.vector
    | none => translateByTables s seg off n kind

/-! ## The read and write primitives (R54, R55) -/

/-- EFLAGS.AC, bit 18 (R60). -/
def State.ac (s : State) : Bool := s.eflags.getLsbD 18

/-- `AlignCheckArmed()` (R60): AM = 1, V86 mode or Protected mode at CPL 3, and `ac_gate`. -/
def State.alignCheckArmed (s : State) : Bool :=
  s.am && (s.mode = .v86 || (s.mode = .prot && s.cpl = 3)) &&
    (match s.platform.acGate with
     | .always => true
     | .eflagsAc => s.ac)

/-- The checks of an operand access, all for all n bytes (R54, R55, R229): `Translate`, alignment, then what the model
refuses: a device range (R62), a store into the program text (R68). Answers the physical addresses. -/
def accessAddrs (s : State) (seg : Seg) (off : DWord) (n : Nat) (kind : AccessKind) : Except Stop (List Nat) :=
  match translateAddr s seg off n kind with
  | .error v => .error (.raise v)
  | .ok ps =>
    if s.alignCheckArmed && off.toNat % n != 0 then .error (.raise .alignmentCheck)
    else if ps.any (inRanges s.devices) then .error (.refuse .deviceAccess)
    else if kind = .write && ps.any (inRanges s.text) then .error (.refuse .storeIntoText)
    else .ok ps

/-- `MemRead(addr, n)` (R54): the value of the n bytes, as a number. -/
def memRead (s : State) (seg : Seg) (off : DWord) (n : Nat) : Except Stop Nat :=
  match accessAddrs s seg off n .read with
  | .error e => .error e
  | .ok ps => .ok (leValue (s.mem.readList ps))

/-- `MemWrite(addr, n, v)` (R55): memory after the write; nothing is written unless every check passes. -/
def memWrite (s : State) (seg : Seg) (off : DWord) (n v : Nat) : Except Stop Memory :=
  match accessAddrs s seg off n .write with
  | .error e => .error e
  | .ok ps => .ok (s.mem.writeList (ps.zip (leBytes n v)))

end Sys2Proof.Machine
end

