-- ==== Sys2Proof/Machine/Operands.lean ====
section
/-! DEFINITION. Operands: effective addresses (20_memory.md R51, R52), the segment (R53), and the operand helpers `Src64`,
`Src32`, `Dst64`, `Dst32` (R56). -/

namespace Sys2Proof.Machine

open Sys2Proof

/-- The displacement value, disp8 sign-extended (R51, R86). -/
def Disp32.value : Disp32 → DWord
  | .none => 0
  | .d8 d => d.signExtend 32
  | .d32 d => d

/-- The displacement value, disp8 sign-extended (R52, R86). -/
def Disp16.value : Disp16 → Word
  | .none => 0
  | .d8 d => d.signExtend 16
  | .d16 d => d

/-- The scaled index: register value shifted left by ss, or 0 without an index (R51, R85). -/
def scaledIndex (s : State) (ss : BitVec 2) : Option Gpr → DWord
  | none => 0
  | some r => s.x r <<< ss.toNat

/-- The offset of a memory operand with 32-bit addressing, modulo 2^32 (R51, R70). -/
def offset32 (s : State) : Mem32 → DWord
  | .abs d => d
  | .base r d => s.x r + Disp32.value d
  | .sib ss idx b d => s.x b + scaledIndex s ss idx + Disp32.value d
  | .sibAbs ss idx d => scaledIndex s ss idx + d

/-- The low half of a general register: BX, BP, SI, DI (R29, R52). -/
def low16 (s : State) (r : Gpr) : Word := (s.x r).extractLsb' 0 16

/-- The base value of 16-bit addressing, modulo 2^16 (R52). -/
def base16 (s : State) : Base16 → Word
  | .bxsi => low16 s .ebx + low16 s .esi
  | .bxdi => low16 s .ebx + low16 s .edi
  | .bpsi => low16 s .ebp + low16 s .esi
  | .bpdi => low16 s .ebp + low16 s .edi
  | .si => low16 s .esi
  | .di => low16 s .edi
  | .bp => low16 s .ebp
  | .bx => low16 s .ebx

/-- The offset of a memory operand with 16-bit addressing, modulo 2^16 and zero-extended (R52, R70). -/
def offset16 (s : State) : Mem16 → DWord
  | .abs d => d.zeroExtend 32
  | .based b d => (base16 s b + Disp16.value d).zeroExtend 32

/-- The offset of a memory operand (R51, R52). -/
def offsetOf (s : State) : MemOp → DWord
  | .a32 m => offset32 s m
  | .a16 m => offset16 s m

/-- A base register that makes SS the default segment: ESP or EBP (R53). -/
def stackBase (r : Gpr) : Bool := r = .esp || r = .ebp

/-- The segment without an override: SS for an EBP, ESP or BP base, DS otherwise (R53). -/
def defaultSeg : MemOp → Seg
  | .a32 (.abs _) => .ds
  | .a32 (.base r _) => if stackBase r then .ss else .ds
  | .a32 (.sib _ _ b _) => if stackBase b then .ss else .ds
  | .a32 (.sibAbs _ _ _) => .ds
  | .a16 (.abs _) => .ds
  | .a16 (.based .bpsi _) => .ss
  | .a16 (.based .bpdi _) => .ss
  | .a16 (.based .bp _) => .ss
  | .a16 (.based _ _) => .ds

/-- The segment a prefix names. -/
def Pfx.segment : Pfx → Option Seg
  | .seg r => some r
  | .addrSize => none
  | .lock => none

/-- The segment-override prefix in force: the last one (R88). -/
def segOverride (p : Prefixes) : Option Seg := (p.filterMap Pfx.segment).getLast?

/-- The segment of a memory operand (R53). -/
def segmentOf (p : Prefixes) (m : MemOp) : Seg := (segOverride p).getD (defaultSeg m)

/-- The `r/m` operand read as 64 bits: `Src64()` (R56). -/
def src64 (p : Prefixes) (s : State) : RM MmReg → Except Stop QWord
  | .reg r => .ok (s.mm r)
  | .mem m => (memRead s (segmentOf p m) (offsetOf s m) 8).map (BitVec.ofNat 64)

/-- The `reg32/mem32` operand read as 32 bits: `Src32()` (R56). -/
def src32 (p : Prefixes) (s : State) : RM Gpr → Except Stop DWord
  | .reg r => .ok (s.x r)
  | .mem m => (memRead s (segmentOf p m) (offsetOf s m) 4).map (BitVec.ofNat 32)

/-- The `mmreg2/mem64` operand written with 64 bits: `Dst64(v)`, the state after the write (R56). -/
def dst64 (p : Prefixes) (s : State) (v : QWord) : RM MmReg → Except Stop State
  | .reg r => .ok (s.setMm r v)
  | .mem m => (memWrite s (segmentOf p m) (offsetOf s m) 8 v.toNat).map fun mem => { s with mem := mem }

/-- The `reg32/mem32` operand written with 32 bits: `Dst32(v)`, the state after the write (R56). -/
def dst32 (p : Prefixes) (s : State) (v : DWord) : RM Gpr → Except Stop State
  | .reg r => .ok (s.setX r v)
  | .mem m => (memWrite s (segmentOf p m) (offsetOf s m) 4 v.toNat).map fun mem => { s with mem := mem }

/-- The common step of the forms `mmreg1, mmreg2/mem64` (R13, R110): check, read both operands, compute, write MM[dst],
set the tags valid, advance pc. -/
def packedOp (p : Prefixes) (dst : MmReg) (src : RM MmReg) (f : QWord → QWord → QWord) (s : State) : Result :=
  mmxCheck p s fun s =>
    withAccess s (src64 p s src) fun b =>
      .next (((s.setMm dst (f (s.mm dst) b)).setTagsValid).advance (lenRM p src))

/-- The common step of the shift-by-immediate forms (R190 form (b)). -/
def immOp (p : Prefixes) (dst : MmReg) (imm : Byte) (f : QWord → Nat → QWord) (s : State) : Result :=
  mmxCheck p s fun s =>
    .next (((s.setMm dst (f (s.mm dst) imm.toNat)).setTagsValid).advance (lenImm p))

end Sys2Proof.Machine
end

