-- ==== Sys2Proof/Machine/AddSub.lean ====
section
/-! DEFINITION. Packed add and subtract (40_arith_add_sub.md R110 to R124). -/

namespace Sys2Proof.Machine

open Sys2Proof

/-- PADDB mmreg1, mmreg2/mem64: eight bytes, wraparound (R111). -/
def execPaddb (p : Prefixes) (dst : MmReg) (src : RM MmReg) (s : State) : Result :=
  packedOp p dst src (mapBytes addWrap) s

/-- PADDW mmreg1, mmreg2/mem64: four words, wraparound (R112). -/
def execPaddw (p : Prefixes) (dst : MmReg) (src : RM MmReg) (s : State) : Result :=
  packedOp p dst src (mapWords addWrap) s

/-- PADDD mmreg1, mmreg2/mem64: two doublewords, wraparound (R113). -/
def execPaddd (p : Prefixes) (dst : MmReg) (src : RM MmReg) (s : State) : Result :=
  packedOp p dst src (mapDWords addWrap) s

/-- PADDSB mmreg1, mmreg2/mem64: eight bytes, signed saturation (R114). -/
def execPaddsb (p : Prefixes) (dst : MmReg) (src : RM MmReg) (s : State) : Result :=
  packedOp p dst src (mapBytes addSatS) s

/-- PADDSW mmreg1, mmreg2/mem64: four words, signed saturation (R115). -/
def execPaddsw (p : Prefixes) (dst : MmReg) (src : RM MmReg) (s : State) : Result :=
  packedOp p dst src (mapWords addSatS) s

/-- PADDUSB mmreg1, mmreg2/mem64: eight bytes, unsigned saturation (R116). -/
def execPaddusb (p : Prefixes) (dst : MmReg) (src : RM MmReg) (s : State) : Result :=
  packedOp p dst src (mapBytes addSatU) s

/-- PADDUSW mmreg1, mmreg2/mem64: four words, unsigned saturation (R117). -/
def execPaddusw (p : Prefixes) (dst : MmReg) (src : RM MmReg) (s : State) : Result :=
  packedOp p dst src (mapWords addSatU) s

/-- PSUBB mmreg1, mmreg2/mem64: eight bytes, wraparound (R118). -/
def execPsubb (p : Prefixes) (dst : MmReg) (src : RM MmReg) (s : State) : Result :=
  packedOp p dst src (mapBytes subWrap) s

/-- PSUBW mmreg1, mmreg2/mem64: four words, wraparound (R119). -/
def execPsubw (p : Prefixes) (dst : MmReg) (src : RM MmReg) (s : State) : Result :=
  packedOp p dst src (mapWords subWrap) s

/-- PSUBD mmreg1, mmreg2/mem64: two doublewords, wraparound (R120). -/
def execPsubd (p : Prefixes) (dst : MmReg) (src : RM MmReg) (s : State) : Result :=
  packedOp p dst src (mapDWords subWrap) s

/-- PSUBSB mmreg1, mmreg2/mem64: eight bytes, signed saturation (R121). -/
def execPsubsb (p : Prefixes) (dst : MmReg) (src : RM MmReg) (s : State) : Result :=
  packedOp p dst src (mapBytes subSatS) s

/-- PSUBSW mmreg1, mmreg2/mem64: four words, signed saturation (R122). -/
def execPsubsw (p : Prefixes) (dst : MmReg) (src : RM MmReg) (s : State) : Result :=
  packedOp p dst src (mapWords subSatS) s

/-- PSUBUSB mmreg1, mmreg2/mem64: eight bytes, unsigned saturation (R123). -/
def execPsubusb (p : Prefixes) (dst : MmReg) (src : RM MmReg) (s : State) : Result :=
  packedOp p dst src (mapBytes subSatU) s

/-- PSUBUSW mmreg1, mmreg2/mem64: four words, unsigned saturation (R124). -/
def execPsubusw (p : Prefixes) (dst : MmReg) (src : RM MmReg) (s : State) : Result :=
  packedOp p dst src (mapWords subSatU) s

end Sys2Proof.Machine
end

