-- ==== Sys2Proof/Machine/Compare.lean ====
section
/-! DEFINITION. Packed compare (43_compare.md R145 to R151). -/

namespace Sys2Proof.Machine

open Sys2Proof

/-- PCMPEQB mmreg1, mmreg2/mem64: eight bytes, equal (R146). -/
def execPcmpeqb (p : Prefixes) (dst : MmReg) (src : RM MmReg) (s : State) : Result :=
  packedOp p dst src (mapBytes laneEq) s

/-- PCMPEQW mmreg1, mmreg2/mem64: four words, equal (R147). -/
def execPcmpeqw (p : Prefixes) (dst : MmReg) (src : RM MmReg) (s : State) : Result :=
  packedOp p dst src (mapWords laneEq) s

/-- PCMPEQD mmreg1, mmreg2/mem64: two doublewords, equal (R148). -/
def execPcmpeqd (p : Prefixes) (dst : MmReg) (src : RM MmReg) (s : State) : Result :=
  packedOp p dst src (mapDWords laneEq) s

/-- PCMPGTB mmreg1, mmreg2/mem64: eight signed bytes, destination greater (R149). -/
def execPcmpgtb (p : Prefixes) (dst : MmReg) (src : RM MmReg) (s : State) : Result :=
  packedOp p dst src (mapBytes laneGt) s

/-- PCMPGTW mmreg1, mmreg2/mem64: four signed words, destination greater (R150). -/
def execPcmpgtw (p : Prefixes) (dst : MmReg) (src : RM MmReg) (s : State) : Result :=
  packedOp p dst src (mapWords laneGt) s

/-- PCMPGTD mmreg1, mmreg2/mem64: two signed doublewords, destination greater (R151). -/
def execPcmpgtd (p : Prefixes) (dst : MmReg) (src : RM MmReg) (s : State) : Result :=
  packedOp p dst src (mapDWords laneGt) s

end Sys2Proof.Machine
end

