-- ==== Sys2Proof/Machine/Convert.lean ====
section
/-! DEFINITION. Pack and unpack (44_convert.md R155 to R165). -/

namespace Sys2Proof.Machine

open Sys2Proof

/-- The result of PACKSSDW: the destination's doublewords fill the low half, the source's the high half (R155, R156). -/
def packDW (a b : QWord) : QWord :=
  ofWords fun i => satS 16 (dwordLane (if i < 2 then a else b) (i % 2)).toInt

/-- The result of PACKSSWB and PACKUSWB, `sat` the saturation of a signed word (R155, R157, R158). -/
def packWB (sat : Int → BitVec 8) (a b : QWord) : QWord :=
  ofBytes fun i => sat (wordLane (if i < 4 then a else b) (i % 4)).toInt

/-- Bytes `start`, `start`+1, ... interleaved, the source's byte above the destination's (R159, R160, R163). -/
def unpackB (start : Nat) (a b : QWord) : QWord :=
  ofBytes fun i => byteLane (if i % 2 = 0 then a else b) (start + i / 2)

/-- Words `start`, `start`+1 interleaved (R161, R164). -/
def unpackW (start : Nat) (a b : QWord) : QWord :=
  ofWords fun i => wordLane (if i % 2 = 0 then a else b) (start + i / 2)

/-- Doubleword `start` of destination and source (R162, R165). -/
def unpackD (start : Nat) (a b : QWord) : QWord :=
  ofDWords fun i => dwordLane (if i % 2 = 0 then a else b) start

/-- PACKSSDW mmreg1, mmreg2/mem64: doublewords to words, signed saturation (R156). -/
def execPackssdw (p : Prefixes) (dst : MmReg) (src : RM MmReg) (s : State) : Result :=
  packedOp p dst src packDW s

/-- PACKSSWB mmreg1, mmreg2/mem64: words to bytes, signed saturation (R157). -/
def execPacksswb (p : Prefixes) (dst : MmReg) (src : RM MmReg) (s : State) : Result :=
  packedOp p dst src (packWB (satS 8)) s

/-- PACKUSWB mmreg1, mmreg2/mem64: signed words to bytes, unsigned saturation (R158). -/
def execPackuswb (p : Prefixes) (dst : MmReg) (src : RM MmReg) (s : State) : Result :=
  packedOp p dst src (packWB (satU 8)) s

/-- PUNPCKHBW mmreg1, mmreg2/mem64: high bytes interleaved (R160). -/
def execPunpckhbw (p : Prefixes) (dst : MmReg) (src : RM MmReg) (s : State) : Result :=
  packedOp p dst src (unpackB 4) s

/-- PUNPCKHWD mmreg1, mmreg2/mem64: high words interleaved (R161). -/
def execPunpckhwd (p : Prefixes) (dst : MmReg) (src : RM MmReg) (s : State) : Result :=
  packedOp p dst src (unpackW 2) s

/-- PUNPCKHDQ mmreg1, mmreg2/mem64: high doublewords combined (R162). -/
def execPunpckhdq (p : Prefixes) (dst : MmReg) (src : RM MmReg) (s : State) : Result :=
  packedOp p dst src (unpackD 1) s

/-- PUNPCKLBW mmreg1, mmreg2/mem64: low bytes interleaved (R163). -/
def execPunpcklbw (p : Prefixes) (dst : MmReg) (src : RM MmReg) (s : State) : Result :=
  packedOp p dst src (unpackB 0) s

/-- PUNPCKLWD mmreg1, mmreg2/mem64: low words interleaved (R164). -/
def execPunpcklwd (p : Prefixes) (dst : MmReg) (src : RM MmReg) (s : State) : Result :=
  packedOp p dst src (unpackW 0) s

/-- PUNPCKLDQ mmreg1, mmreg2/mem64: low doublewords combined (R165). -/
def execPunpckldq (p : Prefixes) (dst : MmReg) (src : RM MmReg) (s : State) : Result :=
  packedOp p dst src (unpackD 0) s

end Sys2Proof.Machine
end

