-- ==== Sys2Proof/Machine/Cpuid.lean ====
section
/-! DEFINITION. CPUID (48_host_instructions.md R210 to R213). -/

namespace Sys2Proof.Machine

open Sys2Proof

/-- EDX bit 23 of functions 1 and 8000_0001h: MMX instructions are supported (R212, R213). -/
def mmxFeatureBit : DWord := 0x00800000

/-- `CPUIDResult` of function 0: the vendor string AuthenticAMD in EBX, EDX, ECX; EAX is the largest standard function,
not in the source but at least 1 (R211). -/
def cpuidVendor : CpuidReg → DWord
  | .eax => if Config.cpuidOther 0 .eax = 0 then 1 else Config.cpuidOther 0 .eax
  | .ebx => 0x68747541
  | .ecx => 0x444D4163
  | .edx => 0x69746E65

/-- `CPUIDResult` of functions 1 and 8000_0001h: EDX bit 23 is 1, every other bit is `cpuid_other` (R212, R213). -/
def cpuidFeatures (function : DWord) : CpuidReg → DWord
  | .edx => Config.cpuidOther function .edx ||| mmxFeatureBit
  | .eax => Config.cpuidOther function .eax
  | .ebx => Config.cpuidOther function .ebx
  | .ecx => Config.cpuidOther function .ecx

/-- `CPUIDResult` (R210, R37). -/
def cpuidResult (function : DWord) (r : CpuidReg) : DWord :=
  if function = 0 then cpuidVendor r
  else if function = 1 then cpuidFeatures function r
  else if function = 0x80000001 then cpuidFeatures function r
  else Config.cpuidOther function r

/-- CPUID: EAX, EBX, ECX, EDX take the result for the function in EAX; no flag, no exception (R210). -/
def execCpuid (p : Prefixes) (s : State) : Result :=
  .next
    (State.advance
      { s with
        gpr :=
          { s.gpr with
            eax := cpuidResult s.gpr.eax .eax
            ebx := cpuidResult s.gpr.eax .ebx
            ecx := cpuidResult s.gpr.eax .ecx
            edx := cpuidResult s.gpr.eax .edx } }
      (lenBare p))

end Sys2Proof.Machine
end

