-- ==== Sys2Proof/Machine/Emms.lean ====
section
/-! DEFINITION. EMMS (42_emms.md R140). -/

namespace Sys2Proof.Machine

open Sys2Proof

/-- EMMS: every tag empty, TOP 0, register contents unchanged (R140, R28). -/
def execEmms (p : Prefixes) (s : State) : Result :=
  mmxCheck p s fun s => .next (s.setTagsEmpty.advance (lenBare p))

end Sys2Proof.Machine
end

