-- ==== Sys2Proof/Machine/Logical.lean ====
section
/-! DEFINITION. Logical instructions (45_logical.md R170 to R174). -/

namespace Sys2Proof.Machine

open Sys2Proof

/-- PAND mmreg1, mmreg2/mem64: bitwise AND (R171). -/
def execPand (p : Prefixes) (dst : MmReg) (src : RM MmReg) (s : State) : Result :=
  packedOp p dst src (fun a b => a &&& b) s

/-- PANDN mmreg1, mmreg2/mem64: the destination inverted, then AND (R172). -/
def execPandn (p : Prefixes) (dst : MmReg) (src : RM MmReg) (s : State) : Result :=
  packedOp p dst src (fun a b => ~~~a &&& b) s

/-- POR mmreg1, mmreg2/mem64: bitwise OR (R173). -/
def execPor (p : Prefixes) (dst : MmReg) (src : RM MmReg) (s : State) : Result :=
  packedOp p dst src (fun a b => a ||| b) s

/-- PXOR mmreg1, mmreg2/mem64: bitwise exclusive OR (R174). -/
def execPxor (p : Prefixes) (dst : MmReg) (src : RM MmReg) (s : State) : Result :=
  packedOp p dst src (fun a b => a ^^^ b) s

end Sys2Proof.Machine
end

