-- ==== Sys2Proof/Machine/Move.lean ====
section
/-! DEFINITION. MOVD and MOVQ (46_move.md). -/

namespace Sys2Proof.Machine

open Sys2Proof

/-- MOVD mmreg1, reg32/mem32: zero-extended (R181). -/
def execMovdLoad (p : Prefixes) (dst : MmReg) (src : RM Gpr) (s : State) : Result :=
  mmxCheck p s fun s =>
    withAccess s (src32 p s src) fun v =>
      .next (((s.setMm dst (v.zeroExtend 64)).setTagsValid).advance (lenRM p src))

/-- MOVD reg32/mem32, mmreg1: bits 31:0 (R182). -/
def execMovdStore (p : Prefixes) (dst : RM Gpr) (src : MmReg) (s : State) : Result :=
  mmxCheck p s fun s =>
    withAccess s (dst32 p s ((s.mm src).extractLsb' 0 32) dst) fun s' =>
      .next (s'.setTagsValid.advance (lenRM p dst))

/-- MOVQ mmreg1, mmreg2/mem64 (R183). -/
def execMovqLoad (p : Prefixes) (dst : MmReg) (src : RM MmReg) (s : State) : Result :=
  packedOp p dst src (fun _ b => b) s

/-- MOVQ mmreg2/mem64, mmreg1 (R184). -/
def execMovqStore (p : Prefixes) (dst : RM MmReg) (src : MmReg) (s : State) : Result :=
  mmxCheck p s fun s =>
    withAccess s (dst64 p s (s.mm src) dst) fun s' =>
      .next (s'.setTagsValid.advance (lenRM p dst))

end Sys2Proof.Machine
end

