-- ==== Sys2Proof/Machine/Multiply.lean ====
section
/-! DEFINITION. Packed multiply (41_arith_multiply.md R130 to R133). -/

namespace Sys2Proof.Machine

open Sys2Proof

/-- The high half of a product of words: bits 31:16 (R132). -/
def mulHigh (a b : BitVec 16) : BitVec 16 := (BitVec.ofInt 32 (wordProduct a b)).extractLsb' 16 16

/-- The low half of a product of words: bits 15:0 (R133). -/
def mulLow (a b : BitVec 16) : BitVec 16 := (BitVec.ofInt 32 (wordProduct a b)).extractLsb' 0 16

/-- The sum of the products of words 2i and 2i+1 (R131, D13: adjacent pairs). -/
def pairSum (a b : QWord) (i : Nat) : BitVec 32 :=
  BitVec.ofInt 32
    (wordProduct (wordLane a (2 * i)) (wordLane b (2 * i)) +
      wordProduct (wordLane a (2 * i + 1)) (wordLane b (2 * i + 1)))

/-- The result of PMADDWD (R131). -/
def pairSums (a b : QWord) : QWord := ofDWords (pairSum a b)

/-- PMADDWD mmreg1, mmreg2/mem64: adjacent signed products added (R131). -/
def execPmaddwd (p : Prefixes) (dst : MmReg) (src : RM MmReg) (s : State) : Result :=
  packedOp p dst src pairSums s

/-- PMULHW mmreg1, mmreg2/mem64: high halves of the signed products (R132). -/
def execPmulhw (p : Prefixes) (dst : MmReg) (src : RM MmReg) (s : State) : Result :=
  packedOp p dst src (mapWords mulHigh) s

/-- PMULLW mmreg1, mmreg2/mem64: low halves of the products (R133). -/
def execPmullw (p : Prefixes) (dst : MmReg) (src : RM MmReg) (s : State) : Result :=
  packedOp p dst src (mapWords mulLow) s

end Sys2Proof.Machine
end

