-- ==== Sys2Proof/Machine/Shift.lean ====
section
/-! DEFINITION. Shift instructions (47_shift.md R190 to R209). -/

namespace Sys2Proof.Machine

open Sys2Proof

/-- PSLLW mmreg1, mmreg2/mem64: words left (R192). -/
def execPsllw (p : Prefixes) (dst : MmReg) (src : RM MmReg) (s : State) : Result :=
  packedOp p dst src (countOf (shiftWords shl)) s

/-- PSLLD mmreg1, mmreg2/mem64: doublewords left (R194). -/
def execPslld (p : Prefixes) (dst : MmReg) (src : RM MmReg) (s : State) : Result :=
  packedOp p dst src (countOf (shiftDWords shl)) s

/-- PSLLQ mmreg1, mmreg2/mem64: quadword left (R196). -/
def execPsllq (p : Prefixes) (dst : MmReg) (src : RM MmReg) (s : State) : Result :=
  packedOp p dst src (countOf shl) s

/-- PSRAW mmreg1, mmreg2/mem64: words right, sign fill (R198). -/
def execPsraw (p : Prefixes) (dst : MmReg) (src : RM MmReg) (s : State) : Result :=
  packedOp p dst src (countOf (shiftWords sar)) s

/-- PSRAD mmreg1, mmreg2/mem64: doublewords right, sign fill (R200). -/
def execPsrad (p : Prefixes) (dst : MmReg) (src : RM MmReg) (s : State) : Result :=
  packedOp p dst src (countOf (shiftDWords sar)) s

/-- PSRLW mmreg1, mmreg2/mem64: words right, zero fill (R202). -/
def execPsrlw (p : Prefixes) (dst : MmReg) (src : RM MmReg) (s : State) : Result :=
  packedOp p dst src (countOf (shiftWords shr)) s

/-- PSRLD mmreg1, mmreg2/mem64: doublewords right, zero fill (R204). -/
def execPsrld (p : Prefixes) (dst : MmReg) (src : RM MmReg) (s : State) : Result :=
  packedOp p dst src (countOf (shiftDWords shr)) s

/-- PSRLQ mmreg1, mmreg2/mem64: quadword right, zero fill (R206). -/
def execPsrlq (p : Prefixes) (dst : MmReg) (src : RM MmReg) (s : State) : Result :=
  packedOp p dst src (countOf shr) s

/-- PSLLW mmreg1, imm8: words left (R193). -/
def execPsllwImm (p : Prefixes) (dst : MmReg) (imm : Byte) (s : State) : Result :=
  immOp p dst imm (shiftWords shl) s

/-- PSLLD mmreg1, imm8: doublewords left (R195). -/
def execPslldImm (p : Prefixes) (dst : MmReg) (imm : Byte) (s : State) : Result :=
  immOp p dst imm (shiftDWords shl) s

/-- PSLLQ mmreg1, imm8: quadword left (R197). -/
def execPsllqImm (p : Prefixes) (dst : MmReg) (imm : Byte) (s : State) : Result :=
  immOp p dst imm shl s

/-- PSRAW mmreg1, imm8: words right, sign fill (R199). -/
def execPsrawImm (p : Prefixes) (dst : MmReg) (imm : Byte) (s : State) : Result :=
  immOp p dst imm (shiftWords sar) s

/-- PSRAD mmreg1, imm8: doublewords right, sign fill (R201). -/
def execPsradImm (p : Prefixes) (dst : MmReg) (imm : Byte) (s : State) : Result :=
  immOp p dst imm (shiftDWords sar) s

/-- PSRLW mmreg1, imm8: words right, zero fill (R203). -/
def execPsrlwImm (p : Prefixes) (dst : MmReg) (imm : Byte) (s : State) : Result :=
  immOp p dst imm (shiftWords shr) s

/-- PSRLD mmreg1, imm8: doublewords right, zero fill (R205). -/
def execPsrldImm (p : Prefixes) (dst : MmReg) (imm : Byte) (s : State) : Result :=
  immOp p dst imm (shiftDWords shr) s

/-- PSRLQ mmreg1, imm8: quadword right, zero fill (R207). -/
def execPsrlqImm (p : Prefixes) (dst : MmReg) (imm : Byte) (s : State) : Result :=
  immOp p dst imm shr s

end Sys2Proof.Machine
end

