-- ==== Sys2Proof/Machine/Dispatch.lean ====
section
/-! DEFINITION. The dispatch of an instruction to its meaning, one arm for each row of spec/opcode_table.json. -/

namespace Sys2Proof.Machine

def exec (i : Instr) (s : State) : Host.Outcome State Fault Refusal :=
  match i with
  | .punpcklbw p dst src => Sys2Proof.Machine.execPunpcklbw p dst src s
  | .punpcklwd p dst src => Sys2Proof.Machine.execPunpcklwd p dst src s
  | .punpckldq p dst src => Sys2Proof.Machine.execPunpckldq p dst src s
  | .packsswb p dst src => Sys2Proof.Machine.execPacksswb p dst src s
  | .pcmpgtb p dst src => Sys2Proof.Machine.execPcmpgtb p dst src s
  | .pcmpgtw p dst src => Sys2Proof.Machine.execPcmpgtw p dst src s
  | .pcmpgtd p dst src => Sys2Proof.Machine.execPcmpgtd p dst src s
  | .packuswb p dst src => Sys2Proof.Machine.execPackuswb p dst src s
  | .punpckhbw p dst src => Sys2Proof.Machine.execPunpckhbw p dst src s
  | .punpckhwd p dst src => Sys2Proof.Machine.execPunpckhwd p dst src s
  | .punpckhdq p dst src => Sys2Proof.Machine.execPunpckhdq p dst src s
  | .packssdw p dst src => Sys2Proof.Machine.execPackssdw p dst src s
  | .movdLoad p dst src => Sys2Proof.Machine.execMovdLoad p dst src s
  | .movqLoad p dst src => Sys2Proof.Machine.execMovqLoad p dst src s
  | .psrlwImm p dst imm => Sys2Proof.Machine.execPsrlwImm p dst imm s
  | .psrawImm p dst imm => Sys2Proof.Machine.execPsrawImm p dst imm s
  | .psllwImm p dst imm => Sys2Proof.Machine.execPsllwImm p dst imm s
  | .psrldImm p dst imm => Sys2Proof.Machine.execPsrldImm p dst imm s
  | .psradImm p dst imm => Sys2Proof.Machine.execPsradImm p dst imm s
  | .pslldImm p dst imm => Sys2Proof.Machine.execPslldImm p dst imm s
  | .psrlqImm p dst imm => Sys2Proof.Machine.execPsrlqImm p dst imm s
  | .psllqImm p dst imm => Sys2Proof.Machine.execPsllqImm p dst imm s
  | .pcmpeqb p dst src => Sys2Proof.Machine.execPcmpeqb p dst src s
  | .pcmpeqw p dst src => Sys2Proof.Machine.execPcmpeqw p dst src s
  | .pcmpeqd p dst src => Sys2Proof.Machine.execPcmpeqd p dst src s
  | .emms p => Sys2Proof.Machine.execEmms p s
  | .movdStore p dst src => Sys2Proof.Machine.execMovdStore p dst src s
  | .movqStore p dst src => Sys2Proof.Machine.execMovqStore p dst src s
  | .psrlw p dst src => Sys2Proof.Machine.execPsrlw p dst src s
  | .psrld p dst src => Sys2Proof.Machine.execPsrld p dst src s
  | .psrlq p dst src => Sys2Proof.Machine.execPsrlq p dst src s
  | .pmullw p dst src => Sys2Proof.Machine.execPmullw p dst src s
  | .psubusb p dst src => Sys2Proof.Machine.execPsubusb p dst src s
  | .psubusw p dst src => Sys2Proof.Machine.execPsubusw p dst src s
  | .pand p dst src => Sys2Proof.Machine.execPand p dst src s
  | .paddusb p dst src => Sys2Proof.Machine.execPaddusb p dst src s
  | .paddusw p dst src => Sys2Proof.Machine.execPaddusw p dst src s
  | .pandn p dst src => Sys2Proof.Machine.execPandn p dst src s
  | .psraw p dst src => Sys2Proof.Machine.execPsraw p dst src s
  | .psrad p dst src => Sys2Proof.Machine.execPsrad p dst src s
  | .pmulhw p dst src => Sys2Proof.Machine.execPmulhw p dst src s
  | .psubsb p dst src => Sys2Proof.Machine.execPsubsb p dst src s
  | .psubsw p dst src => Sys2Proof.Machine.execPsubsw p dst src s
  | .por p dst src => Sys2Proof.Machine.execPor p dst src s
  | .paddsb p dst src => Sys2Proof.Machine.execPaddsb p dst src s
  | .paddsw p dst src => Sys2Proof.Machine.execPaddsw p dst src s
  | .pxor p dst src => Sys2Proof.Machine.execPxor p dst src s
  | .psllw p dst src => Sys2Proof.Machine.execPsllw p dst src s
  | .pslld p dst src => Sys2Proof.Machine.execPslld p dst src s
  | .psllq p dst src => Sys2Proof.Machine.execPsllq p dst src s
  | .pmaddwd p dst src => Sys2Proof.Machine.execPmaddwd p dst src s
  | .psubb p dst src => Sys2Proof.Machine.execPsubb p dst src s
  | .psubw p dst src => Sys2Proof.Machine.execPsubw p dst src s
  | .psubd p dst src => Sys2Proof.Machine.execPsubd p dst src s
  | .paddb p dst src => Sys2Proof.Machine.execPaddb p dst src s
  | .paddw p dst src => Sys2Proof.Machine.execPaddw p dst src s
  | .paddd p dst src => Sys2Proof.Machine.execPaddd p dst src s
  | .cpuid p => Sys2Proof.Machine.execCpuid p s

end Sys2Proof.Machine
end

