-- ==== Sys2Proof/Machine/Fetch.lean ====
section
/-! DEFINITION. Fetching an instruction: its bytes through CS at pc, pc+1, ... (30_encoding.md R99), all in the program
text (D20); decoding them; and the load of an instruction that `withFetchWord` stands for. -/

namespace Sys2Proof.Machine

open Sys2Proof

/-- One more than the largest pc: EIP is 32 bits wide, "used as 16 bits when the code segment is a 16-bit one" (R30). -/
def pcBound (s : State) : Nat :=
  match s.defaultAddrSize with
  | .a16 => 2 ^ 16
  | .a32 => 2 ^ 32

/-- The physical address of instruction byte k, if it is in the code segment and mapped (R99). -/
def codeAddr (s : State) (k : Nat) : Option Nat :=
  if s.pc.toNat + k < pcBound s then
    match translateAddr s .cs (s.pc + BitVec.ofNat 32 k) 1 .fetch with
    | .ok [a] => some a
    | _ => none
  else none

/-- Instruction byte k, if it lies in the program text and not in device space (R99, R62). -/
def fetchByte (s : State) (k : Nat) : Option Byte :=
  match codeAddr s k with
  | some a => if inRanges s.text a && !inRanges s.devices a then some (s.mem.read a) else none
  | none => none

/-- Up to n instruction bytes from byte k on, as far as they can be fetched. -/
def fetchBytes (s : State) : Nat → Nat → List Byte
  | 0, _ => []
  | n + 1, k =>
    match fetchByte s k with
    | some b => b :: fetchBytes s n (k + 1)
    | none => []

/-- The bytes the decoder is given: at most the longest instruction (R91). -/
def fetchWindow (s : State) : List Byte := fetchBytes s Config.maxInstrBytes 0

/-- `pc + n` does not wrap (R30, D3): refused where it is the bound itself, since pc would be 0. The end of the code segment
is a matter of the bytes: each is fetched through the limit of CS (`codeAddr`), so that an instruction whose last byte is
at the limit, `pc + n` = limit + 1, does not pass the end and runs: DESIGN CHOICE, log entry 47. -/
def pcFits (s : State) (n : Nat) : Bool := s.pc.toNat + n < pcBound s

/-- What a fetch finds: an instruction of the opcode table, a sample instruction, or nothing the model runs. -/
inductive Fetched where
  | mmx (i : Instr)
  | host (h : HostInstr)
  | refuse (r : Refusal)
  deriving DecidableEq, Repr

/-- Why the bytes of the window are no instruction: an instruction that does not end in a full window is longer than 15
bytes (R91); in a shorter one it leaves the program text (R99). -/
def fetchRefusal (window : List Byte) (e : DecodeError) : Refusal :=
  if e = .truncated then
    if window.length = Config.maxInstrBytes then .undecodable .tooLong else .fetchOutsideText
  else .undecodable e

/-- Fetch and decode (R99, R100, R214); the whole instruction lies in the program text and `pc + ilen` does not wrap. -/
def fetchDecode (s : State) : Fetched :=
  let w := fetchWindow s
  match decode s.defaultAddrSize w with
  | .ok (i, rest) => if pcFits s (w.length - rest.length) then .mmx i else .refuse .pcOutOfRange
  | .error e =>
    match decodeHost s.defaultAddrSize w with
    | some (h, rest) => if pcFits s (w.length - rest.length) then .host h else .refuse .pcOutOfRange
    | none => .refuse (fetchRefusal w e)

/-- The cells of code bytes: byte k at the physical address of instruction byte k. -/
def codeCells (s : State) (bytes : List Byte) : List Host.Cell :=
  bytes.zipIdx.filterMap fun b => (codeAddr s b.2).map fun a => (a, b.1)

/-- Load bytes as the instruction at pc: memory holds them, they belong to the program text, the program has control. -/
def placeCode (s : State) (bytes : List Byte) : State :=
  { s with
    mem := s.mem.writeList (codeCells s bytes)
    text := (codeCells s bytes).map (fun c => { base := c.1, size := 1 }) ++ s.text
    control := .running }

end Sys2Proof.Machine
end

