-- ==== Sys2Proof/Machine/Environment.lean ====
section
/-! DEFINITION. What the spec says of the environment: saving and restoring the MMX state (48_host_instructions.md R215),
the writes of CR0.TS and CR0.EM (R218), the task switch and the interrupt-7 handler's protocol (60_exceptions.md R241), the
emulation under CR0.EM = 1 (R233). -/

namespace Sys2Proof.Machine

open Sys2Proof

/-- The copy that FSAVE makes: "MM[0..7], FTW, TOP and the rest of the x87 state", of which State holds FPpending (R215,
R35, R40; log entry 34). -/
def State.fpImage (s : State) : FpImage := { fpr := s.fpr, ftw := s.ftw, top := s.top, fpPending := s.fpPending }

/-- The inverse of the copy: FRSTOR, and the load of the interrupt-7 handler (R215, R241). FPpending travels with the
image: DEDUCED from R35 and R40, log entry 34. -/
def State.loadFpImage (s : State) (img : FpImage) : State :=
  { s with fpr := img.fpr, ftw := img.ftw, top := img.top, fpPending := img.fpPending }

/-- What an x87 instruction checks before it acts: device not available with CR0.TS = 1 (R222) and with CR0.EM = 1 (R244),
then the pending floating-point exception, which it observes "as interrupt 16 or FERR#" (R39, R246). `.error` holds the
state in which it ends without acting. That it meets the pending exception as an MMX instruction does (R226), and the check
of EM, are log entry 46. -/
def x87Check {α : Type} (s : State) (k : State → α) : Except State α :=
  if s.em || s.ts then .error (s.raise .deviceNotAvailable)
  else if s.fpPending then fpReport s .error fun s' => .ok (k s')
  else .ok (k s)

/-- FSAVE as an environment operation (R215): where the checks pass, the image and the state after it, the tag word
FFFFh. -/
def State.fsave (s : State) : Except State (FpImage × State) :=
  x87Check s fun s' => (s'.fpImage, { s' with ftw := 0xFFFF })

/-- FRSTOR as an environment operation (R215): where the checks pass, the image is loaded. -/
def State.frstor (s : State) (img : FpImage) : Except State State :=
  x87Check s fun s' => s'.loadFpImage img

/-- The task table after the image of a task is saved. -/
def TaskTable.save (t : TaskTable) (task : Nat) (img : FpImage) : TaskTable :=
  { t with areas := (task, img) :: t.areas.filter (fun a => a.1 != task) }

/-- The save area of a task. -/
def TaskTable.area (t : TaskTable) (task : Nat) : Option FpImage := t.areas.lookup task

/-- The operating system's write of CR0.EM (R218, R32), an operation of the environment and no step: log entry 35. -/
def State.writeEm (s : State) (v : Bool) : State := if v then s.setEm else s.clearEm

/-- The operating system's write of CR0.TS (R218, R32), an operation of the environment and no step: log entry 35. -/
def State.writeTs (s : State) (v : Bool) : State := if v then s.setTs else s.clearTs

/-- `on task switch: CR0.TS <- 1` (R241), task `n` becoming the running one. No step of the model performs it (R237):
log entry 35. -/
def State.taskSwitch (s : State) (n : Nat) : State :=
  { s.writeTs true with os := s.os.map fun t => { t with current := n } }

/-- `on DeviceNotAvailable(7)` (R241): save the state of the task that last used the registers, load that of the running
task, CR0.TS <- 0, resume at the pc of the exception. `none` if the running task has no save area. The save and the load are
those of the contract, which has no check in it: log entry 46. -/
def State.int7Handler (s : State) (t : TaskTable) (e : ExcOutcome) : Option State :=
  let saved := t.save t.owner s.fpImage
  match saved.area t.current with
  | some img =>
    some (State.returnFromHandler
      { (s.loadFpImage img).writeTs false with os := some { saved with owner := t.current } } e)
  | none => none

/-- The answer of an emulated instruction: CR0 as it was; an instruction that raises 6 with EM = 0 too (LOCK, R90) is
none that the contract of R233 covers. -/
def emulated (cr0 : DWord) : Result → Result
  | .next t =>
    if t.control = .environment ⟨.invalidOpcode, t.pc⟩ then .refused (.handlerOutsideModel .invalidOpcode)
    else .next { t with cr0 := cr0 }
  | .fault f => .fault f
  | .refused r => .refused r

/-- "for interrupt 6 with EM = 1, emulation of the instruction" (R233): what the MMX instruction at the pc of the
exception does with CR0.EM = 0, its own exceptions included, CR0 being as before afterwards. The manual describes no
emulator (R244): DESIGN CHOICE, log entry 45. -/
def State.emulate (s : State) (e : ExcOutcome) : Result :=
  let s' := State.returnFromHandler s.clearEm e
  match fetchDecode s' with
  | .mmx i => emulated s.cr0 (exec i s')
  | .host _ => .refused (.handlerOutsideModel .invalidOpcode)
  | .refuse r => .refused r

/-- The step of the machine while the environment has control (R233): the interrupt-7 protocol where the operating system
follows it (R241), the emulation where it emulates (R233); of any other handler the spec says nothing. -/
def environmentStep (e : ExcOutcome) (s : State) : Result :=
  match e.vector with
  | .deviceNotAvailable =>
    match s.os with
    | some t =>
      match s.int7Handler t e with
      | some s' => .next s'
      | none => .refused (.handlerOutsideModel .deviceNotAvailable)
    | none => .refused (.handlerOutsideModel .deviceNotAvailable)
  | .invalidOpcode =>
    if s.emulator && s.em then s.emulate e else .refused (.handlerOutsideModel .invalidOpcode)
  | v => .refused (.handlerOutsideModel v)

end Sys2Proof.Machine
end

