-- ==== Sys2Proof/Machine/Flags.lean ====
section
/-! DEFINITION. Flag computations. No MMX instruction reads or writes a flag (10_state.md R31), so what stands here is for
the sample instructions of 48_host_instructions.md R214: ZF where R214 states it, the other arithmetic flags free values
(log entry 21), and the bits POPFD writes (R31, R214). -/

namespace Sys2Proof.Machine

open Sys2Proof

/-- EFLAGS.ZF, bit 6 (the x86 position, log entry 17). -/
def zfMask : DWord := 0x00000040

/-- EFLAGS.ID, bit 21 (R31). -/
def idMask : DWord := 0x00200000

/-- The arithmetic flags CF, PF, AF, ZF, SF, OF at their x86 positions (log entry 17). -/
def arithMask : DWord := 0x000008D5

/-- EFLAGS.ZF. -/
def State.zf (s : State) : Bool := s.eflags.getLsbD 6

/-- `new` in the bits of `mask`, `old` elsewhere. -/
def mergeBits (mask old new : DWord) : DWord := (old &&& ~~~mask) ||| (new &&& mask)

/-- All arithmetic flags take free values: R214 says of XOR only that it "writes the arithmetic flags". -/
def State.freeArith (s : State) : State :=
  { s with
    eflags := mergeBits arithMask s.eflags (Config.freeFlags s.freeCount)
    freeCount := s.freeCount + 1 }

/-- ZF takes the stated value, the other arithmetic flags take free values (R214: CMP, TEST). -/
def State.setZf (s : State) (z : Bool) : State :=
  { s with
    eflags := mergeBits zfMask (mergeBits arithMask s.eflags (Config.freeFlags s.freeCount)) (if z then zfMask else 0)
    freeCount := s.freeCount + 1 }

/-- The bits of EFLAGS that software may change: the platform's, and ID in any case (R31, R214). -/
def State.popfdBits (s : State) : DWord := s.platform.popfdMask ||| idMask

end Sys2Proof.Machine
end

