-- ==== Sys2Proof/Machine/HostX86.lean ====
section
/-! DEFINITION. The x86 instructions of the detection samples (48_host_instructions.md R214), in a 32-bit code segment.
None of them sets or reads the tag word, and none makes the checks of an MMX instruction. Log entry 22. -/

namespace Sys2Proof.Machine

open Sys2Proof

/-- `ESP <- ESP - 4; MemWrite(SS:ESP, 4, v)`, then `pc <- pc + n` (R214). -/
def push32 (v : DWord) (n : Nat) (s : State) : Result :=
  withAccess s (memWrite s .ss (s.x .esp - 4) 4 v.toNat) fun mem =>
    .next ((State.setX { s with mem := mem } .esp (s.x .esp - 4)).advance n)

/-- `v <- MemRead(SS:ESP, 4); ESP <- ESP + 4`, `k` using v, then `pc <- pc + n` (R214). -/
def pop32 (k : DWord → State → State) (n : Nat) (s : State) : Result :=
  withAccess s (memRead s .ss (s.x .esp) 4) fun v =>
    .next ((k (BitVec.ofNat 32 v) (s.setX .esp (s.x .esp + 4))).advance n)

/-- pushfd. -/
def execPushfd (s : State) : Result := push32 s.eflags 1 s

/-- pop eax. -/
def execPopEax (s : State) : Result := pop32 (fun v s => s.setX .eax v) 1 s

/-- mov ebx, eax. -/
def execMovEbxEax (s : State) : Result := .next ((s.setX .ebx (s.x .eax)).advance 2)

/-- xor eax, imm32. -/
def execXorEax (imm : DWord) (s : State) : Result :=
  .next (((s.setX .eax (s.x .eax ^^^ imm)).freeArith).advance 5)

/-- push eax. -/
def execPushEax (s : State) : Result := push32 (s.x .eax) 1 s

/-- popfd: only the bits software may change. -/
def execPopfd (s : State) : Result :=
  pop32 (fun v s => { s with eflags := mergeBits s.popfdBits s.eflags v }) 1 s

/-- cmp eax, ebx: ZF = 1 iff EAX = EBX. -/
def execCmpEaxEbx (s : State) : Result :=
  .next ((s.setZf (s.x .eax = s.x .ebx)).advance 2)

/-- jz rel8. -/
def execJz (rel : Byte) (s : State) : Result :=
  .next (if s.zf then { s with pc := s.pc + 2 + rel.signExtend 32 } else s.advance 2)

/-- mov eax, imm32. -/
def execMovEax (imm : DWord) (s : State) : Result := .next ((s.setX .eax imm).advance 5)

/-- test edx, imm32: ZF = 1 iff the AND is 0. -/
def execTestEdx (imm : DWord) (s : State) : Result :=
  .next ((s.setZf (s.x .edx &&& imm = 0)).advance 6)

/-- jnz rel8. -/
def execJnz (rel : Byte) (s : State) : Result :=
  .next (if s.zf then s.advance 2 else { s with pc := s.pc + 2 + rel.signExtend 32 })

/-- The meaning of a sample instruction. -/
def execHost (h : HostInstr) (s : State) : Result :=
  match h with
  | .pushfd => execPushfd s
  | .popEax => execPopEax s
  | .movEbxEax => execMovEbxEax s
  | .xorEax imm => execXorEax imm s
  | .pushEax => execPushEax s
  | .popfd => execPopfd s
  | .cmpEaxEbx => execCmpEaxEbx s
  | .jz rel => execJz rel s
  | .movEax imm => execMovEax imm s
  | .testEdx imm => execTestEdx imm s
  | .jnz rel => execJnz rel s

end Sys2Proof.Machine
end

