-- ==== Sys2Proof/Machine/Step.lean ====
section
/-! DEFINITION. One step of the machine: one instruction of the program, or the environment's part (60_exceptions.md R233),
and the load of one instruction where the next step fetches. -/

namespace Sys2Proof.Machine

open Sys2Proof

/-- Run the instruction at pc (00_scope.md R13, 30_encoding.md R99). -/
def runInstruction (s : State) : Host.Outcome State Fault Refusal :=
  match fetchDecode s with
  | .mmx i => exec i s
  | .host h => execHost h s
  | .refuse r => .refused r

/-- One step. -/
def step (s : State) : Host.Outcome State Fault Refusal :=
  match s.control with
  | .running => runInstruction s
  | .environment e => environmentStep e s
  | .ferrWait => .fault .fpPendingStuck

/-- `s` with the instruction of a table word, followed by bytes of zeros up to 15 bytes, loaded at pc. Log entry 26. -/
def State.withFetchWord (s : State) (nbits w : Nat) : State :=
  placeCode s (tableBytes nbits w)

end Sys2Proof.Machine
end

