-- ==== Sys2Proof/Safety.lean ====
section
/-! DEFINITION. The terms claims are stated in: which instructions are MMX instructions and which have a memory operand,
when an MMX instruction executes normally, the state it leaves, what no instruction changes, and the invariant of the
machine. -/

namespace Sys2Proof

/-! ## About an instruction as syntax -/

/-- The prefix bytes of an instruction. -/
def Instr.pfx : Instr → Prefixes
  | .punpcklbw p _ _ => p
  | .punpcklwd p _ _ => p
  | .punpckldq p _ _ => p
  | .packsswb p _ _ => p
  | .pcmpgtb p _ _ => p
  | .pcmpgtw p _ _ => p
  | .pcmpgtd p _ _ => p
  | .packuswb p _ _ => p
  | .punpckhbw p _ _ => p
  | .punpckhwd p _ _ => p
  | .punpckhdq p _ _ => p
  | .packssdw p _ _ => p
  | .movdLoad p _ _ => p
  | .movqLoad p _ _ => p
  | .psrlwImm p _ _ => p
  | .psrawImm p _ _ => p
  | .psllwImm p _ _ => p
  | .psrldImm p _ _ => p
  | .psradImm p _ _ => p
  | .pslldImm p _ _ => p
  | .psrlqImm p _ _ => p
  | .psllqImm p _ _ => p
  | .pcmpeqb p _ _ => p
  | .pcmpeqw p _ _ => p
  | .pcmpeqd p _ _ => p
  | .emms p => p
  | .movdStore p _ _ => p
  | .movqStore p _ _ => p
  | .psrlw p _ _ => p
  | .psrld p _ _ => p
  | .psrlq p _ _ => p
  | .pmullw p _ _ => p
  | .psubusb p _ _ => p
  | .psubusw p _ _ => p
  | .pand p _ _ => p
  | .paddusb p _ _ => p
  | .paddusw p _ _ => p
  | .pandn p _ _ => p
  | .psraw p _ _ => p
  | .psrad p _ _ => p
  | .pmulhw p _ _ => p
  | .psubsb p _ _ => p
  | .psubsw p _ _ => p
  | .por p _ _ => p
  | .paddsb p _ _ => p
  | .paddsw p _ _ => p
  | .pxor p _ _ => p
  | .psllw p _ _ => p
  | .pslld p _ _ => p
  | .psllq p _ _ => p
  | .pmaddwd p _ _ => p
  | .psubb p _ _ => p
  | .psubw p _ _ => p
  | .psubd p _ _ => p
  | .paddb p _ _ => p
  | .paddw p _ _ => p
  | .paddd p _ _ => p
  | .cpuid p => p

/-- One of the 57 MMX instruction forms: every row of the opcode table but CPUID (R92). -/
def Instr.isMmx : Instr → Bool
  | .cpuid _ => false
  | _ => true

/-- EMMS. -/
def Instr.isEmms : Instr → Bool
  | .emms _ => true
  | _ => false

/-- A memory operand of an `r/m` operand, with its width in bytes and the kind of access (R50). -/
def RM.memAccess {R : Type} (n : Nat) (kind : Machine.AccessKind) : RM R → Option (MemOp × Nat × Machine.AccessKind)
  | .reg _ => none
  | .mem m => some (m, n, kind)

/-- The one memory access of an instruction (R50): its operand, the width in bytes, read or write. -/
def Instr.access : Instr → Option (MemOp × Nat × Machine.AccessKind)
  | .punpcklbw _ _ src => RM.memAccess 8 .read src
  | .punpcklwd _ _ src => RM.memAccess 8 .read src
  | .punpckldq _ _ src => RM.memAccess 8 .read src
  | .packsswb _ _ src => RM.memAccess 8 .read src
  | .pcmpgtb _ _ src => RM.memAccess 8 .read src
  | .pcmpgtw _ _ src => RM.memAccess 8 .read src
  | .pcmpgtd _ _ src => RM.memAccess 8 .read src
  | .packuswb _ _ src => RM.memAccess 8 .read src
  | .punpckhbw _ _ src => RM.memAccess 8 .read src
  | .punpckhwd _ _ src => RM.memAccess 8 .read src
  | .punpckhdq _ _ src => RM.memAccess 8 .read src
  | .packssdw _ _ src => RM.memAccess 8 .read src
  | .movdLoad _ _ src => RM.memAccess 4 .read src
  | .movqLoad _ _ src => RM.memAccess 8 .read src
  | .psrlwImm _ _ _ => none
  | .psrawImm _ _ _ => none
  | .psllwImm _ _ _ => none
  | .psrldImm _ _ _ => none
  | .psradImm _ _ _ => none
  | .pslldImm _ _ _ => none
  | .psrlqImm _ _ _ => none
  | .psllqImm _ _ _ => none
  | .pcmpeqb _ _ src => RM.memAccess 8 .read src
  | .pcmpeqw _ _ src => RM.memAccess 8 .read src
  | .pcmpeqd _ _ src => RM.memAccess 8 .read src
  | .emms _ => none
  | .movdStore _ dst _ => RM.memAccess 4 .write dst
  | .movqStore _ dst _ => RM.memAccess 8 .write dst
  | .psrlw _ _ src => RM.memAccess 8 .read src
  | .psrld _ _ src => RM.memAccess 8 .read src
  | .psrlq _ _ src => RM.memAccess 8 .read src
  | .pmullw _ _ src => RM.memAccess 8 .read src
  | .psubusb _ _ src => RM.memAccess 8 .read src
  | .psubusw _ _ src => RM.memAccess 8 .read src
  | .pand _ _ src => RM.memAccess 8 .read src
  | .paddusb _ _ src => RM.memAccess 8 .read src
  | .paddusw _ _ src => RM.memAccess 8 .read src
  | .pandn _ _ src => RM.memAccess 8 .read src
  | .psraw _ _ src => RM.memAccess 8 .read src
  | .psrad _ _ src => RM.memAccess 8 .read src
  | .pmulhw _ _ src => RM.memAccess 8 .read src
  | .psubsb _ _ src => RM.memAccess 8 .read src
  | .psubsw _ _ src => RM.memAccess 8 .read src
  | .por _ _ src => RM.memAccess 8 .read src
  | .paddsb _ _ src => RM.memAccess 8 .read src
  | .paddsw _ _ src => RM.memAccess 8 .read src
  | .pxor _ _ src => RM.memAccess 8 .read src
  | .psllw _ _ src => RM.memAccess 8 .read src
  | .pslld _ _ src => RM.memAccess 8 .read src
  | .psllq _ _ src => RM.memAccess 8 .read src
  | .pmaddwd _ _ src => RM.memAccess 8 .read src
  | .psubb _ _ src => RM.memAccess 8 .read src
  | .psubw _ _ src => RM.memAccess 8 .read src
  | .psubd _ _ src => RM.memAccess 8 .read src
  | .paddb _ _ src => RM.memAccess 8 .read src
  | .paddw _ _ src => RM.memAccess 8 .read src
  | .paddd _ _ src => RM.memAccess 8 .read src
  | .cpuid _ => none

/-- The instruction has a memory operand (R50). -/
def Instr.hasMem (i : Instr) : Bool := i.access.isSome

/-- The MMX register an instruction writes: its destination operand, if that is an MMX register (R25, R102). -/
def Instr.mmDst : Instr → Option MmReg
  | .punpcklbw _ dst _ => some dst
  | .punpcklwd _ dst _ => some dst
  | .punpckldq _ dst _ => some dst
  | .packsswb _ dst _ => some dst
  | .pcmpgtb _ dst _ => some dst
  | .pcmpgtw _ dst _ => some dst
  | .pcmpgtd _ dst _ => some dst
  | .packuswb _ dst _ => some dst
  | .punpckhbw _ dst _ => some dst
  | .punpckhwd _ dst _ => some dst
  | .punpckhdq _ dst _ => some dst
  | .packssdw _ dst _ => some dst
  | .movdLoad _ dst _ => some dst
  | .movqLoad _ dst _ => some dst
  | .psrlwImm _ dst _ => some dst
  | .psrawImm _ dst _ => some dst
  | .psllwImm _ dst _ => some dst
  | .psrldImm _ dst _ => some dst
  | .psradImm _ dst _ => some dst
  | .pslldImm _ dst _ => some dst
  | .psrlqImm _ dst _ => some dst
  | .psllqImm _ dst _ => some dst
  | .pcmpeqb _ dst _ => some dst
  | .pcmpeqw _ dst _ => some dst
  | .pcmpeqd _ dst _ => some dst
  | .emms _ => none
  | .movdStore _ _ _ => none
  | .movqStore _ (.reg dst) _ => some dst
  | .movqStore _ (.mem _) _ => none
  | .psrlw _ dst _ => some dst
  | .psrld _ dst _ => some dst
  | .psrlq _ dst _ => some dst
  | .pmullw _ dst _ => some dst
  | .psubusb _ dst _ => some dst
  | .psubusw _ dst _ => some dst
  | .pand _ dst _ => some dst
  | .paddusb _ dst _ => some dst
  | .paddusw _ dst _ => some dst
  | .pandn _ dst _ => some dst
  | .psraw _ dst _ => some dst
  | .psrad _ dst _ => some dst
  | .pmulhw _ dst _ => some dst
  | .psubsb _ dst _ => some dst
  | .psubsw _ dst _ => some dst
  | .por _ dst _ => some dst
  | .paddsb _ dst _ => some dst
  | .paddsw _ dst _ => some dst
  | .pxor _ dst _ => some dst
  | .psllw _ dst _ => some dst
  | .pslld _ dst _ => some dst
  | .psllq _ dst _ => some dst
  | .pmaddwd _ dst _ => some dst
  | .psubb _ dst _ => some dst
  | .psubw _ dst _ => some dst
  | .psubd _ dst _ => some dst
  | .paddb _ dst _ => some dst
  | .paddw _ dst _ => some dst
  | .paddd _ dst _ => some dst
  | .cpuid _ => none

end Sys2Proof

namespace Sys2Proof.Machine

open Sys2Proof

/-! ## When an MMX instruction executes -/

/-- The premises under which `MMXCheck()` passes (R228, R233): no LOCK prefix, CR0.EM = 0, CR0.TS = 0, no pending
floating-point exception. -/
abbrev Ready (p : Prefixes) (s : State) : Prop :=
  p.contains .lock = false ∧ s.em = false ∧ s.ts = false ∧ s.fpPending = false

/-- `t` is the state after an MMX instruction of `n` bytes that wrote `v` to MM[dst] (R13, R27, R110): MM[dst] is `v`, the
other registers are as before, the tags are valid, pc is past the instruction, and nothing else has changed but TOP
(R36), of which this says nothing, as of bits 79:64 of the destination (R22): both are the spec's from general knowledge,
and `RegisterFiles` and `TagWordAfterInstruction` state them. -/
def WroteMm (s t : State) (dst : MmReg) (v : QWord) (n : Nat) : Prop :=
  t.mm dst = v ∧ (∀ r, r ≠ dst → t.fpr.get r = s.fpr.get r) ∧
  t = { s with fpr := t.fpr, ftw := 0x0000, top := t.top, pc := s.pc + BitVec.ofNat 32 n }

/-- The state after a raise: `Exception(v, pc)` with control in the environment, nothing else changed (R232, R233). -/
def State.raised (s : State) (v : ExcVector) : State :=
  { s with control := .environment { vector := v, pc := s.pc } }

/-- What `i` does when a check of `MMXCheck()` fails (R228): 6 with LOCK or EM = 1, else 7 with TS = 1, else FERR# and 16
with a pending floating-point exception and NE = 1. -/
def FailsChecks (i : Instr) (s : State) : Prop :=
  (i.pfx.contains .lock = true ∨ s.em = true → exec i s = .next (s.raised .invalidOpcode)) ∧
  (i.pfx.contains .lock = false → s.em = false → s.ts = true → exec i s = .next (s.raised .deviceNotAvailable)) ∧
  (i.pfx.contains .lock = false → s.em = false → s.ts = false → s.fpPending = true → s.ne = true →
    exec i s = .next (State.raised { s with ferr := true } .floatingPoint))

/-- What `i` raises where just one of the causes of `MMXCheck()` is present, so that their order plays no part: LOCK or
EM = 1 (R90, R221), TS = 1 (R222), a pending floating-point exception with NE = 1 (R226). -/
def RaisesOnOneCause (i : Instr) (s : State) : Prop :=
  (i.pfx.contains .lock = true ∨ s.em = true → s.ts = false → s.fpPending = false →
    exec i s = .next (s.raised .invalidOpcode)) ∧
  (i.pfx.contains .lock = false → s.em = false → s.ts = true → s.fpPending = false →
    exec i s = .next (s.raised .deviceNotAvailable)) ∧
  (i.pfx.contains .lock = false → s.em = false → s.ts = false → s.fpPending = true → s.ne = true →
    exec i s = .next (State.raised { s with ferr := true } .floatingPoint))

/-- What the forms `0F op /r`, `mmreg1, mmreg2/mem64` have in common (R81 format F1, R92, R110), with `rel a b r` saying
that `r` is the result for the destination's old value `a` and the source's value `b`: the encoding, the completed
instruction wherever the checks pass and the source operand is readable, the exception of a source operand that raises
one, and those of the checks. (Opcode bytes that the source has lost are the spec's, recovered: R96, log entry 30.) -/
def PackedForm (mk : Prefixes → MmReg → RM MmReg → Instr) (op : Byte) (rel : QWord → QWord → QWord → Prop) : Prop :=
  ∀ (p : Prefixes) (dst : MmReg) (src : RM MmReg) (s : State),
    encode (mk p dst src) = p.map Pfx.byte ++ 0x0F :: op :: encRM MmReg.bits dst.bits src ∧
    (Ready p s → ∀ b, src64 p s src = .ok b →
      ∃ r t, rel (s.mm dst) b r ∧ exec (mk p dst src) s = .next t ∧ WroteMm s t dst r (lenRM p src)) ∧
    (Ready p s → ∀ v, src64 p s src = .error (.raise v) → exec (mk p dst src) s = .next (s.raised v)) ∧
    RaisesOnOneCause (mk p dst src) s

/-- What the shift-by-immediate forms `0F op /digit ib` have in common (R81 format F4, R95, R190 form (b)), with
`rel a n r` saying that `r` is the value `a` shifted by the count `n`; as `PackedForm`, without a memory operand. -/
def ImmForm (mk : Prefixes → MmReg → Byte → Instr) (op : Byte) (digit : BitVec 3) (rel : QWord → Nat → QWord → Prop) :
    Prop :=
  ∀ (p : Prefixes) (dst : MmReg) (imm : Byte) (s : State),
    encode (mk p dst imm) = p.map Pfx.byte ++ [0x0F, op, (3 : BitVec 2) ++ digit ++ dst.bits, imm] ∧
    (Ready p s →
      ∃ r t, rel (s.mm dst) imm.toNat r ∧ exec (mk p dst imm) s = .next t ∧ WroteMm s t dst r (p.length + 4)) ∧
    RaisesOnOneCause (mk p dst imm) s

/-! ## What Translate answers (R57) -/

/-- The environment gives no answer of its own for these arguments of `Translate`: the segments and page regions answer. -/
abbrev NoEntry (s : State) (seg : Seg) (off : DWord) (n : Nat) (kind : AccessKind) : Prop :=
  ∀ e ∈ s.translation, ¬(e.seg = seg ∧ e.off = off ∧ e.n = n ∧ e.kind = kind)

/-- Every byte of the operand is in its range (R57): offsets up to 0FFFFh in Real and V86 mode, up to the segment limit in
Protected mode, with the right to the access. -/
abbrev Within (s : State) (seg : Seg) (off : DWord) (n : Nat) (kind : AccessKind) : Prop :=
  if s.mode = .prot then
    off.toNat + n ≤ (s.segs.get seg).limit.toNat + 1 ∧ (kind = .read → (s.segs.get seg).readable = true) ∧
      (kind = .write → (s.segs.get seg).writable = true)
  else off.toNat + n ≤ 0x10000

/-- The linear address of byte k by arithmetic: base plus offset plus k modulo 2^32 (log entry 8). -/
abbrev linearOf (s : State) (seg : Seg) (off : DWord) (k : Nat) : Nat :=
  ((s.segs.get seg).base.toNat + off.toNat + k) % 2 ^ 32

/-- A page region maps a linear address and allows the access (R225). -/
abbrev Maps (s : State) (kind : AccessKind) (lin : Nat) (r : PageRegion) : Prop :=
  r.base ≤ lin ∧ lin < r.base + r.size ∧ (s.mode = .v86 ∨ s.cpl = 3 → r.user = true) ∧
    (kind = .write → r.writable = true)

/-! ## Frames -/

/-- The state no instruction of the opcode table changes (R25, R31, R32, R33, R34, R35): flags, control register,
segments, mode, privilege, the pending exception, and what belongs to the environment and the platform. -/
def SystemFrame (s t : State) : Prop :=
  t.eflags = s.eflags ∧ t.cr0 = s.cr0 ∧ t.segs = s.segs ∧ t.mode = s.mode ∧ t.cpl = s.cpl ∧
  t.fpPending = s.fpPending ∧ t.defaultAddrSize = s.defaultAddrSize ∧ t.paging = s.paging ∧
  t.translation = s.translation ∧ t.text = s.text ∧
  t.devices = s.devices ∧ t.os = s.os ∧ t.emulator = s.emulator ∧ t.platform = s.platform ∧ t.freeCount = s.freeCount

/-- The physical addresses an instruction stores to, as its meaning computes them: those of its destination operand in
memory if the access passes every check, none otherwise (R50, R55). -/
def storedAddrs (i : Instr) (s : State) : List Nat :=
  match i.access with
  | some (m, n, .write) =>
    match accessAddrs s (segmentOf i.pfx m) (offsetOf s m) n .write with
    | .ok ps => ps
    | .error _ => []
  | _ => []

/-- The bits of EFLAGS that are the arithmetic flags CF, PF, AF, ZF, SF, OF (log entry 17). -/
def arithFlags : List Nat := [0, 2, 4, 6, 7, 11]

/-! ## The invariant -/

/-- The invariant every step keeps: memory has its canonical form; V86 mode runs at CPL 3 (R34, D26); an exception handed
to the environment names the pc of the instruction that raised it (R232, R233). -/
def State.Inv (s : State) : Prop :=
  s.mem.wf ∧ (s.mode = .v86 → s.cpl = 3) ∧ (∀ e, s.control = .environment e → e.pc = s.pc)

/-- A safe step: the machine goes on and the program keeps control. -/
def SafeStep (s : State) : Prop := ∃ t, step s = .next t ∧ t.control = .running

end Sys2Proof.Machine
end

