-- ==== Sys2Proof/Certificates/Slice0/Obligations.lean ====
section
/-! DEFINITION. The statements for the provers, one definition each; OBLIGATIONS.json lists them. A statement cites the rule
of spec/ it formalises, or says that it is the model's choice and names the log entry. -/

open Sys2Proof Sys2Proof.Machine

/-! ## Encoding (30_encoding.md) -/

/-- Decoding the bytes of a well-formed instruction gives it back, for every operand, displacement, prefix run and
following bytes (R80 to R100). -/
def Obligations.DecodeOfEncode : Prop :=
  ∀ (dflt : AddrSize) (i : Instr) (rest : List Byte),
    i.wf dflt = true → decode dflt (encode i ++ rest) = .ok (i, rest)

/-- What the decoder accepts is the encoding of the instruction it answers, which is well formed: each byte sequence has
one meaning (R92: "No two rows match the same `w`"). -/
def Obligations.EncodeOfDecode : Prop :=
  ∀ (dflt : AddrSize) (bs : List Byte) (i : Instr) (rest : List Byte),
    decode dflt bs = .ok (i, rest) → bs = encode i ++ rest ∧ i.wf dflt = true

/-- Words written out from the encoding examples of R101 decode to the instructions they stand for. -/
def Obligations.SampleWordsDecode : Prop :=
  decode .a32 [0x0F, 0x77] = .ok (.emms [], []) ∧
  decode .a32 [0x0F, 0xFC, 0xC1] = .ok (.paddb [] .mm0 (.reg .mm1), []) ∧
  decode .a32 [0x0F, 0xFC, 0x1E] = .ok (.paddb [] .mm3 (.mem (.a32 (.base .esi .none))), []) ∧
  decode .a32 [0x0F, 0x7F, 0x0F] = .ok (.movqStore [] (.mem (.a32 (.base .edi .none))) .mm1, []) ∧
  decode .a32 [0x0F, 0x6F, 0x54, 0xCB, 0x10] =
    .ok (.movqLoad [] .mm2 (.mem (.a32 (.sib 3 (some .ecx) .ebx (.d8 0x10)))), []) ∧
  decode .a32 [0x0F, 0x6F, 0x0D, 0x78, 0x56, 0x34, 0x12] =
    .ok (.movqLoad [] .mm1 (.mem (.a32 (.abs 0x12345678))), []) ∧
  decode .a32 [0x0F, 0x6E, 0xD0] = .ok (.movdLoad [] .mm2 (.reg .eax), []) ∧
  decode .a32 [0x0F, 0x7E, 0xE9] = .ok (.movdStore [] (.reg .ecx) .mm5, []) ∧
  decode .a32 [0x0F, 0x71, 0xD3, 0x08] = .ok (.psrlwImm [] .mm3 8, []) ∧
  decode .a32 [0x0F, 0x73, 0xF7, 0x3F] = .ok (.psllqImm [] .mm7 63, []) ∧
  decode .a32 [0x26, 0x0F, 0xEF, 0x23] = .ok (.pxor [.seg .es] .mm4 (.mem (.a32 (.base .ebx .none))), []) ∧
  decode .a32 [0x67, 0x0F, 0x6F, 0x00] = .ok (.movqLoad [.addrSize] .mm0 (.mem (.a16 (.based .bxsi .none))), []) ∧
  decode .a32 [0x0F, 0xA2] = .ok (.cpuid [], [])

/-- A second opcode byte that R94's grid marks unassigned, an unassigned shift digit (R95), a shift-by-immediate opcode
with a memory ModRM, and the prefixes 66h, F2h, F3h after any prefixes are refused by name (R91, R97; to refuse them is
the spec's own decision, log entry 24). -/
def Obligations.UnassignedEncodingsRefused : Prop :=
  ∀ (dflt : AddrSize) (p : Prefixes) (rest : List Byte),
    (∀ op ∈ [(0x6C : Byte), 0x6D, 0x70, 0x78, 0x79, 0x7A, 0x7B, 0x7C, 0x7D, 0xD0, 0xD4, 0xD6, 0xD7, 0xDA, 0xDE, 0xE0,
        0xE3, 0xE4, 0xE6, 0xE7, 0xEA, 0xEE, 0xF0, 0xF4, 0xF6, 0xF7, 0xFB, 0xFF],
      decode dflt (p.map Pfx.byte ++ 0x0F :: op :: rest) = .error (.unassignedOpcode op)) ∧
    (∀ op ∈ [(0x71 : Byte), 0x72, 0x73], ∀ (digit r : BitVec 3),
      (digit ∉ [(2 : BitVec 3), 4, 6] ∨ (op = 0x73 ∧ digit = 4)) →
        decode dflt (p.map Pfx.byte ++ 0x0F :: op :: ((3 : BitVec 2) ++ digit ++ r) :: rest) =
          .error (.unassignedShift op digit)) ∧
    (∀ op ∈ [(0x71 : Byte), 0x72, 0x73], ∀ (mod : BitVec 2) (digit r : BitVec 3), mod ≠ 3 →
      decode dflt (p.map Pfx.byte ++ 0x0F :: op :: (mod ++ digit ++ r) :: rest) = .error (.shiftWithMemory op)) ∧
    (∀ b ∈ [(0x66 : Byte), 0xF2, 0xF3], decode dflt (p.map Pfx.byte ++ b :: rest) = .error (.pfxNotInSource b))

/-! ## State and operands -/

/-- The register files. A write of MM[n] is read back, leaves the other seven MMX registers, and sets bits 79:64 of the
floating-point register to ones (R20, R21; R22, from general knowledge, log entry 15); a write of a general register is read
back whole and leaves the other seven (R29). -/
def Obligations.RegisterFiles : Prop :=
  (∀ (s : State) (r r' : MmReg) (v : QWord),
    (s.setMm r v).mm r' = (if r' = r then v else s.mm r') ∧
    (s.setMm r v).fpr.get r = (0xFFFF : BitVec 16) ++ v ∧
    (r' ≠ r → (s.setMm r v).fpr.get r' = s.fpr.get r')) ∧
  ∀ (s : State) (r r' : Gpr) (v : DWord), (s.setX r v).x r' = if r' = r then v else s.x r'

/-- The offset of a memory operand: with 32-bit addressing as a number modulo 2^32 (R51), with 16-bit addressing as a
number modulo 2^16 of the low halves BX, BP, SI, DI (R52); disp8 is sign-extended (R86). The spec has both forms
from general knowledge. -/
def Obligations.EffectiveAddress : Prop :=
  (∀ (s : State) (r b idx : Gpr) (ss : BitVec 2) (d8 : Byte) (d : DWord) (disp : Disp32),
    (offsetOf s (.a32 (.abs d))).toNat = d.toNat ∧
    (offsetOf s (.a32 (.base r disp))).toNat = ((s.x r).toNat + (Disp32.value disp).toNat) % 2 ^ 32 ∧
    (offsetOf s (.a32 (.sib ss (some idx) b disp))).toNat =
      ((s.x b).toNat + (s.x idx).toNat * 2 ^ ss.toNat + (Disp32.value disp).toNat) % 2 ^ 32 ∧
    (offsetOf s (.a32 (.sib ss none b disp))).toNat = ((s.x b).toNat + (Disp32.value disp).toNat) % 2 ^ 32 ∧
    (offsetOf s (.a32 (.sibAbs ss (some idx) d))).toNat = ((s.x idx).toNat * 2 ^ ss.toNat + d.toNat) % 2 ^ 32 ∧
    (offsetOf s (.a32 (.sibAbs ss none d))).toNat = d.toNat ∧
    (Disp32.value .none).toNat = 0 ∧ (Disp32.value (.d8 d8)).toInt = d8.toInt ∧ Disp32.value (.d32 d) = d) ∧
  ∀ (s : State) (d8 : Byte) (d : Word) (disp : Disp16),
    (offsetOf s (.a16 (.abs d))).toNat = d.toNat ∧
    (offsetOf s (.a16 (.based .bxsi disp))).toNat =
      ((s.x .ebx).toNat + (s.x .esi).toNat + (Disp16.value disp).toNat) % 2 ^ 16 ∧
    (offsetOf s (.a16 (.based .bxdi disp))).toNat =
      ((s.x .ebx).toNat + (s.x .edi).toNat + (Disp16.value disp).toNat) % 2 ^ 16 ∧
    (offsetOf s (.a16 (.based .bpsi disp))).toNat =
      ((s.x .ebp).toNat + (s.x .esi).toNat + (Disp16.value disp).toNat) % 2 ^ 16 ∧
    (offsetOf s (.a16 (.based .bpdi disp))).toNat =
      ((s.x .ebp).toNat + (s.x .edi).toNat + (Disp16.value disp).toNat) % 2 ^ 16 ∧
    (offsetOf s (.a16 (.based .si disp))).toNat = ((s.x .esi).toNat + (Disp16.value disp).toNat) % 2 ^ 16 ∧
    (offsetOf s (.a16 (.based .di disp))).toNat = ((s.x .edi).toNat + (Disp16.value disp).toNat) % 2 ^ 16 ∧
    (offsetOf s (.a16 (.based .bp disp))).toNat = ((s.x .ebp).toNat + (Disp16.value disp).toNat) % 2 ^ 16 ∧
    (offsetOf s (.a16 (.based .bx disp))).toNat = ((s.x .ebx).toNat + (Disp16.value disp).toNat) % 2 ^ 16 ∧
    (Disp16.value .none).toNat = 0 ∧ (Disp16.value (.d8 d8)).toInt = d8.toInt ∧ Disp16.value (.d16 d) = d

/-- The segment of a memory operand: the last segment-override prefix (R88; of several, log entry 39); without one SS for
an EBP, ESP or BP base and DS otherwise (R53, the spec's own decision D25). -/
def Obligations.OperandSegment : Prop :=
  (∀ (p q : Prefixes) (g : Seg) (m : MemOp), (∀ x ∈ q, x = .addrSize ∨ x = .lock) →
    segmentOf (p ++ .seg g :: q) m = g) ∧
  (∀ (p : Prefixes), (∀ x ∈ p, x = .addrSize ∨ x = .lock) →
    (∀ r d, segmentOf p (.a32 (.base r d)) = if r = .ebp ∨ r = .esp then .ss else .ds) ∧
    (∀ ss idx b d, segmentOf p (.a32 (.sib ss idx b d)) = if b = .ebp ∨ b = .esp then .ss else .ds) ∧
    (∀ d, segmentOf p (.a32 (.abs d)) = .ds) ∧
    (∀ ss idx d, segmentOf p (.a32 (.sibAbs ss idx d)) = .ds) ∧
    (∀ d, segmentOf p (.a16 (.abs d)) = .ds) ∧
    (∀ b d, segmentOf p (.a16 (.based b d)) = if b = .bpsi ∨ b = .bpdi ∨ b = .bp then .ss else .ds))

/-! ## Memory (20_memory.md) -/

/-- A read of n bytes whose access passes its checks answers the number whose byte k is the byte of memory at the k-th
address: little-endian (R54; R58, the spec's own decision, log entry 36). -/
def Obligations.ReadIsLittleEndian : Prop :=
  ∀ (s : State) (seg : Seg) (off : DWord) (n : Nat) (ps : List Nat),
    accessAddrs s seg off n .read = .ok ps →
      ps.length = n ∧
      ∃ v, memRead s seg off n = .ok v ∧ v < 256 ^ n ∧
        ∀ k a, ps[k]? = some a → BitVec.ofNat 8 (v >>> (8 * k)) = s.mem.read a

/-- The 64-bit and 32-bit memory source operands are the 8 and 4 bytes at the operand address, byte k in bits 8k+7:8k
(R56; R58, the spec's own decision, log entry 36). -/
def Obligations.MemorySourceBytes : Prop :=
  ∀ (p : Prefixes) (s : State) (m : MemOp) (ps : List Nat),
    (accessAddrs s (segmentOf p m) (offsetOf s m) 8 .read = .ok ps →
      ∃ v : QWord, src64 p s (.mem m) = .ok v ∧
        ∀ k a, ps[k]? = some a → v.extractLsb' (8 * k) 8 = s.mem.read a) ∧
    (accessAddrs s (segmentOf p m) (offsetOf s m) 4 .read = .ok ps →
      ∃ v : DWord, src32 p s (.mem m) = .ok v ∧
        ∀ k a, ps[k]? = some a → v.extractLsb' (8 * k) 8 = s.mem.read a)

/-- A write of n bytes whose access passes its checks stores byte k of the value at the k-th address, leaves every other
byte, and keeps the canonical form of memory (R55; R58, the spec's own decision, log entry 36). -/
def Obligations.WriteStoresBytes : Prop :=
  ∀ (s : State) (seg : Seg) (off : DWord) (n v : Nat) (ps : List Nat),
    accessAddrs s seg off n .write = .ok ps →
      ps.length = n ∧
      ∃ m, memWrite s seg off n v = .ok m ∧
        (∀ a, a ∉ ps → m.read a = s.mem.read a) ∧
        (ps.Nodup → ∀ k a, ps[k]? = some a → m.read a = BitVec.ofNat 8 (v >>> (8 * k))) ∧
        (s.mem.wf → m.wf)

/-- An operand beyond 0FFFFh in Real or V86 mode, or beyond FFFF_FFFFh (R70) or the segment limit in Protected mode, raises
12 through SS and 13 through another segment (R57, R223, R224); an access the segment's rights deny raises 13; a byte
that no page region maps raises 14, in V86 and Protected mode (R225); and for arguments for which the environment gives a
failure that R57 has in the mode, that one is raised. Segments and page regions as data, used where the environment gives
no answer of its own, are the model's (log entries 7, 8 and 9). -/
def Obligations.TranslateFailures : Prop :=
  ∀ (s : State) (seg : Seg) (off : DWord) (n : Nat) (kind : AccessKind),
    ((s.mode = .real ∨ s.mode = .v86) → 0x10000 < off.toNat + n →
      accessAddrs s seg off n kind = .error (.raise (if seg = .ss then .stack else .generalProtection))) ∧
    (s.mode = .prot → 2 ^ 32 < off.toNat + n →
      accessAddrs s seg off n kind = .error (.raise (if seg = .ss then .stack else .generalProtection))) ∧
    (s.mode = .prot → NoEntry s seg off n kind → (s.segs.get seg).limit.toNat + 1 < off.toNat + n →
      accessAddrs s seg off n kind = .error (.raise (if seg = .ss then .stack else .generalProtection))) ∧
    (s.mode = .prot → NoEntry s seg off n kind → off.toNat + n ≤ (s.segs.get seg).limit.toNat + 1 →
      ((kind = .read ∧ (s.segs.get seg).readable = false) ∨ (kind = .write ∧ (s.segs.get seg).writable = false)) →
      accessAddrs s seg off n kind = .error (.raise .generalProtection)) ∧
    (∀ rs k, NoEntry s seg off n kind → Within s seg off n kind → s.mode ≠ .real → s.paging = some rs → k < n →
      (∀ r ∈ rs, ¬Maps s kind (linearOf s seg off k) r) →
      accessAddrs s seg off n kind = .error (.raise .pageFault)) ∧
    (∀ f v, ((f = .stack ∧ seg = .ss ∧ v = .stack) ∨ (f = .generalProtection ∧ s.mode = .prot ∧ v = .generalProtection) ∨
        (f = .page ∧ s.mode ≠ .real ∧ v = .pageFault)) →
      off.toNat + n ≤ (if s.mode = .prot then 2 ^ 32 else 2 ^ 16) →
      accessAddrs { s with translation := ⟨seg, off, n, kind, .fails f⟩ :: s.translation } seg off n kind =
        .error (.raise v))

/-- A translated but unaligned access raises 17 when alignment checking is armed: AM = 1, V86 mode or Protected mode at
CPL 3, and `ac_gate` (R60, R227). It never does in Real mode, in Protected mode at CPL 0 to 2, with AM = 0, or where `ac_gate` is
EFLAGS.AC and AC = 0; and no
access raises 14 in Real mode (R220). `ac_gate` is a parameter of the spec (log entry 13). -/
def Obligations.AlignmentCheckArming : Prop :=
  ∀ (s : State) (seg : Seg) (off : DWord) (n : Nat) (kind : AccessKind),
    (∀ ps, translateAddr s seg off n kind = .ok ps → s.am = true →
      (s.mode = .v86 ∨ (s.mode = .prot ∧ s.cpl = 3)) →
      (s.platform.acGate = .always ∨ s.eflags.getLsbD 18 = true) → off.toNat % n ≠ 0 →
      accessAddrs s seg off n kind = .error (.raise .alignmentCheck)) ∧
    ((s.mode = .real ∨ (s.mode = .prot ∧ s.cpl ≠ 3) ∨ s.am = false ∨ off.toNat % n = 0 ∨
        (s.platform.acGate = .eflagsAc ∧ s.eflags.getLsbD 18 = false)) →
      accessAddrs s seg off n kind ≠ .error (.raise .alignmentCheck)) ∧
    (s.mode = .real → accessAddrs s seg off n kind ≠ .error (.raise .pageFault))

/-- What `Translate` answers where it does not fail, and what an access does then. In its range, with the rights, and
without an answer of the environment's own, `Translate` gives the linear addresses, base plus offset plus k modulo 2^32,
in Real mode and without paging, and with paging what a region that maps them makes of them; n addresses that the
environment gives are the answer (R57, R225; log entries 7 and 8). An access that raises nothing is refused if it touches
a device range (R62), and a store if it overlaps the program text (R68): the model's refusals, log entries 10 and 11.
Every other access answers its n addresses, aligned or not (R59). -/
def Obligations.AccessAfterChecks : Prop :=
  ∀ (s : State) (seg : Seg) (off : DWord) (n : Nat) (kind : AccessKind),
    (NoEntry s seg off n kind → Within s seg off n kind →
      (s.mode = .real ∨ s.paging = none →
        translateAddr s seg off n kind = .ok ((List.range n).map (linearOf s seg off))) ∧
      (∀ rs, s.mode ≠ .real → s.paging = some rs →
        (∀ k, k < n → ∃ r ∈ rs, Maps s kind (linearOf s seg off k) r) →
        ∃ ps, translateAddr s seg off n kind = .ok ps ∧ ps.length = n ∧
          ∀ k, k < n → ∃ r ∈ rs, Maps s kind (linearOf s seg off k) r ∧
            ps[k]? = some (r.phys + (linearOf s seg off k - r.base)))) ∧
    (∀ ps : List Nat, ps.length = n → off.toNat + n ≤ (if s.mode = .prot then 2 ^ 32 else 2 ^ 16) →
      translateAddr { s with translation := ⟨seg, off, n, kind, .addrs ps⟩ :: s.translation } seg off n kind = .ok ps) ∧
    ∀ ps : List Nat, translateAddr s seg off n kind = .ok ps → (s.alignCheckArmed = false ∨ off.toNat % n = 0) →
      ((∃ a ∈ ps, inRanges s.devices a = true) → accessAddrs s seg off n kind = .error (.refuse .deviceAccess)) ∧
      ((∀ a ∈ ps, inRanges s.devices a = false) → kind = .write → (∃ a ∈ ps, inRanges s.text a = true) →
        accessAddrs s seg off n kind = .error (.refuse .storeIntoText)) ∧
      ((∀ a ∈ ps, inRanges s.devices a = false) → (kind = .write → ∀ a ∈ ps, inRanges s.text a = false) →
        accessAddrs s seg off n kind = .ok ps)

/-- A load sees the most recent store in program order: after a MOVQ store, a MOVQ load of the same operand gives the
register that was stored (R65). -/
def Obligations.LoadSeesStore : Prop :=
  ∀ (p : Prefixes) (m : MemOp) (r r' : MmReg) (s : State) (ps : List Nat),
    Ready p s → accessAddrs s (segmentOf p m) (offsetOf s m) 8 .write = .ok ps →
      accessAddrs s (segmentOf p m) (offsetOf s m) 8 .read = .ok ps → ps.Nodup →
      ∃ t u, exec (.movqStore p (.mem m) r) s = .next t ∧ exec (.movqLoad p r' (.mem m)) t = .next u ∧
        u.mm r' = s.mm r

/-! ## The checks and exceptions (60_exceptions.md) -/

/-- Every MMX instruction, EMMS included, makes the checks in the order LOCK, EM, TS, pending floating-point exception,
whatever its operands (R90, R221, R222, R226; the order is the spec's own decision, R228, log entry 18); then the access
of its memory operand raises the exception it finds, or is one the model refuses (R229, R233; log entries 10, 11). -/
def Obligations.ChecksInOrder : Prop :=
  ∀ (i : Instr) (s : State), i.isMmx = true →
    FailsChecks i s ∧
    (Ready i.pfx s → ∀ m n kind, i.access = some (m, n, kind) →
      (∀ v, accessAddrs s (segmentOf i.pfx m) (offsetOf s m) n kind = .error (.raise v) →
        exec i s = .next (s.raised v)) ∧
      (∀ e, accessAddrs s (segmentOf i.pfx m) (offsetOf s m) n kind = .error (.refuse e) → exec i s = .refused e))

/-- A pending floating-point exception with CR0.NE = 0 asserts FERR# and then follows `ne0_policy` (R226, a parameter of
the spec, log entry 13): the wait that has no further step, the platform's interrupt, or the instruction as if nothing were pending. -/
def Obligations.PendingWithNeClear : Prop :=
  ∀ (i : Instr) (s : State), i.isMmx = true → i.pfx.contains .lock = false → s.em = false → s.ts = false →
    s.fpPending = true → s.ne = false →
      (s.platform.ne0Policy = .stuck →
        exec i s = .next { s with ferr := true, control := .ferrWait } ∧
          step { s with ferr := true, control := .ferrWait } = .fault .fpPendingStuck) ∧
      (∀ n, s.platform.ne0Policy = .externalInterrupt n →
        exec i s = .next (State.raised { s with ferr := true } (.external n))) ∧
      (s.platform.ne0Policy = .ignore → ∀ t, exec i { s with ferr := true, fpPending := false } = .next t →
        exec i s = .next { t with fpPending := true })

/-- An instruction that raises changes nothing but who has control, and FERR# where a floating-point exception is pending;
the outcome names the vector and the unchanged pc (R232, R233; a next state of the model, log entry 5). -/
def Obligations.ExceptionsArePrecise : Prop :=
  ∀ (i : Instr) (s t : State) (e : ExcOutcome), s.control = .running → exec i s = .next t →
    t.control = .environment e →
      e.pc = s.pc ∧ t = { s with control := .environment e, ferr := t.ferr } ∧ (t.ferr ≠ s.ferr → s.fpPending = true)

/-- An instruction with no memory operand raises none of 12, 13, 14 and 17, and CPUID raises nothing (R210, R230). -/
def Obligations.RegisterFormsRaiseNoMemoryException : Prop :=
  ∀ (i : Instr) (s t : State) (e : ExcOutcome), s.control = .running → exec i s = .next t →
    t.control = .environment e →
      i.isMmx = true ∧
      (i.hasMem = false → e.vector = .invalidOpcode ∨ e.vector = .deviceNotAvailable ∨ e.vector = .floatingPoint ∨
        ∃ n, e.vector = .external n)

/-- The interrupt-7 protocol (R241): with CR0.TS = 1 an MMX instruction raises 7; the handler saves the state of the task
that last used the registers, loads that of the running task, clears TS and resumes at the same instruction, which is
then no longer stopped by TS; memory and the general registers are as before. That the handler is one step of the model
is the model's choice (log entry 6); that FPpending is part of what is saved is log entry 34. -/
def Obligations.Interrupt7Protocol : Prop :=
  ∀ (i : Instr) (s : State) (tasks : TaskTable) (img : FpImage),
    i.isMmx = true → i.pfx.contains .lock = false → s.em = false → s.ts = true → s.os = some tasks →
    (if tasks.current = tasks.owner then img = { fpr := s.fpr, ftw := s.ftw, top := s.top, fpPending := s.fpPending }
     else tasks.area tasks.current = some img) →
      ∃ u v tasks', exec i s = .next u ∧ step u = .next v ∧
        v.control = .running ∧ v.pc = s.pc ∧ v.ts = false ∧ v.em = false ∧
        v.fpr = img.fpr ∧ v.ftw = img.ftw ∧ v.top = img.top ∧ v.fpPending = img.fpPending ∧
        v.os = some tasks' ∧ tasks'.owner = tasks.current ∧ tasks'.current = tasks.current ∧
        tasks'.area tasks.owner = some { fpr := s.fpr, ftw := s.ftw, top := s.top, fpPending := s.fpPending } ∧
        (∀ task, task ≠ tasks.owner → tasks'.area task = tasks.area task) ∧
        v.mem = s.mem ∧ v.gpr = s.gpr ∧ v.eflags = s.eflags

/-- Saving and restoring (R215): FSAVE and FRSTOR report device not available while CR0.TS = 1 or CR0.EM = 1; else they
observe a pending floating-point exception, asserting FERR# and reporting 16 with CR0.NE = 1 and following `ne0_policy`
with NE = 0 (R39); else what FSAVE copied gives back every floating-point register, the tag word, TOP and FPpending (log
entry 34) and nothing else, in any state in which FRSTOR completes, and FSAVE leaves the tag word FFFFh and everything else
as it was. A task switch sets CR0.TS, makes task n the running one of the task table, and changes nothing else (R241). The
operating system's writes of CR0.EM and of CR0.TS change that bit alone (R218). The model has them as the environment's
operations, not as steps (log entry 35); the check of EM and what follows a pending exception are log entry 46. -/
def Obligations.SaveAndRestore : Prop :=
  ∀ (s u : State) (n : Nat) (img : FpImage) (b : Bool),
    (s.ts = true ∨ s.em = true →
      s.fsave = .error (s.raised .deviceNotAvailable) ∧ s.frstor img = .error (s.raised .deviceNotAvailable)) ∧
    (s.ts = false → s.em = false → s.fpPending = true →
      (s.ne = true → s.fsave = .error (State.raised { s with ferr := true } .floatingPoint) ∧
        s.frstor img = .error (State.raised { s with ferr := true } .floatingPoint)) ∧
      (s.ne = false → s.platform.ne0Policy = .stuck → s.fsave = .error { s with ferr := true, control := .ferrWait } ∧
        s.frstor img = .error { s with ferr := true, control := .ferrWait }) ∧
      (∀ v, s.ne = false → s.platform.ne0Policy = .externalInterrupt v →
        s.fsave = .error (State.raised { s with ferr := true } (.external v)) ∧
        s.frstor img = .error (State.raised { s with ferr := true } (.external v))) ∧
      (s.ne = false → s.platform.ne0Policy = .ignore →
        s.fsave = .ok ({ fpr := s.fpr, ftw := s.ftw, top := s.top, fpPending := true },
          { s with ferr := true, ftw := 0xFFFF }) ∧
        s.frstor img = .ok { s with
          ferr := true, fpr := img.fpr, ftw := img.ftw, top := img.top, fpPending := img.fpPending })) ∧
    (s.ts = false → s.em = false → s.fpPending = false →
      s.frstor img = .ok { s with fpr := img.fpr, ftw := img.ftw, top := img.top, fpPending := img.fpPending } ∧
      ∃ saved, s.fsave = .ok (saved, { s with ftw := 0xFFFF }) ∧
        (u.ts = false → u.em = false → u.fpPending = false →
          u.frstor saved = .ok { u with fpr := s.fpr, ftw := s.ftw, top := s.top, fpPending := s.fpPending })) ∧
    (∃ (c : DWord) (os' : Option TaskTable), s.taskSwitch n = { s with cr0 := c, os := os' } ∧ c.getLsbD 3 = true ∧
      (∀ k, k ≠ 3 → c.getLsbD k = s.cr0.getLsbD k) ∧ (s.os = none → os' = none) ∧
      ∀ t, s.os = some t → os' = some { t with current := n }) ∧
    (∃ c : DWord, s.writeEm b = { s with cr0 := c } ∧ c.getLsbD 2 = b ∧ ∀ k, k ≠ 2 → c.getLsbD k = s.cr0.getLsbD k) ∧
    (∃ c : DWord, s.writeTs b = { s with cr0 := c } ∧ c.getLsbD 3 = b ∧ ∀ k, k ≠ 3 → c.getLsbD k = s.cr0.getLsbD k)

/-! ## What every instruction leaves (frames) -/

/-- An instruction that completes continues at `pc + ilen`: there is no MMX branch (R30, R99, R217). -/
def Obligations.CompletedGoesOnAfterInstruction : Prop :=
  ∀ (i : Instr) (s t : State), s.control = .running → exec i s = .next t → t.control = .running →
    t.pc = s.pc + BitVec.ofNat 32 (encode i).length

/-- After every completed MMX instruction except EMMS the tag word is 0000h, after EMMS FFFFh (R27, R28), and TOP is 0
(R36, from general knowledge, log entry 15); CPUID leaves both. -/
def Obligations.TagWordAfterInstruction : Prop :=
  ∀ (i : Instr) (s t : State), s.control = .running → exec i s = .next t → t.control = .running →
    (i.isMmx = true → t.ftw = (if i.isEmms then 0xFFFF else 0x0000) ∧ t.top = 0) ∧
    (i.isMmx = false → t.ftw = s.ftw ∧ t.top = s.top)

/-- No instruction of the opcode table writes EFLAGS, CR0, a segment register, the mode, the privilege level, FPpending or
anything of the environment and the platform (R25, R31, R32, R33, R35). -/
def Obligations.SystemStateUnchanged : Prop :=
  ∀ (i : Instr) (s t : State), exec i s = .next t → SystemFrame s t

/-- Which general registers an instruction writes: `MOVD reg32, mmreg1` its destination, CPUID EAX, EBX, ECX and EDX, no
other instruction any (R25, R210). -/
def Obligations.GeneralRegisterFrame : Prop :=
  ∀ (i : Instr) (s t : State), exec i s = .next t →
    match i with
    | .movdStore _ (.reg r) _ => ∀ r', r' ≠ r → t.x r' = s.x r'
    | .cpuid _ => t.x .esp = s.x .esp ∧ t.x .ebp = s.x .ebp ∧ t.x .esi = s.x .esi ∧ t.x .edi = s.x .edi
    | _ => t.gpr = s.gpr

/-- Every byte of memory is unchanged except the 4 bytes of a MOVD store and the 8 bytes of a MOVQ store, at the addresses
the meaning computes for the destination operand; every other form, and every instruction that raises or waits instead of
completing, changes no byte (R50, R55, R232). -/
def Obligations.MemoryFrame : Prop :=
  ∀ (i : Instr) (s t : State), exec i s = .next t →
    (∀ a, a ∉ storedAddrs i s → t.mem.read a = s.mem.read a) ∧ (storedAddrs i s = [] → t.mem = s.mem) ∧
    (s.control = .running → t.control ≠ .running → t.mem = s.mem)

/-- An instruction leaves every floating-point register, MMX part and bits 79:64, but its MMX destination as it was; EMMS,
CPUID, the MOVD store and the MOVQ store to memory have none (R22, R25, R28, R182, R184). -/
def Obligations.MmRegisterFrame : Prop :=
  ∀ (i : Instr) (s t : State), exec i s = .next t → ∀ r, i.mmDst ≠ some r → t.fpr.get r = s.fpr.get r

/-! ## Packed add and subtract (40_arith_add_sub.md) -/

/-- PADDB, PADDW, PADDD: lane-wise addition modulo 2^8, 2^16, 2^32 (R110 to R113). -/
def Obligations.PackedAddWraparound : Prop :=
  PackedForm .paddb 0xFC (fun a b r => ∀ i, i < 8 →
    byteLane r i = BitVec.ofNat 8 ((byteLane a i).toNat + (byteLane b i).toNat)) ∧
  PackedForm .paddw 0xFD (fun a b r => ∀ i, i < 4 →
    wordLane r i = BitVec.ofNat 16 ((wordLane a i).toNat + (wordLane b i).toNat)) ∧
  PackedForm .paddd 0xFE (fun a b r => ∀ i, i < 2 →
    dwordLane r i = BitVec.ofNat 32 ((dwordLane a i).toNat + (dwordLane b i).toNat))

/-- PADDSB, PADDSW: lane-wise signed addition saturated to -128..127 and -32768..32767 (R114, R115). -/
def Obligations.PackedAddSignedSaturation : Prop :=
  PackedForm .paddsb 0xEC (fun a b r => ∀ i, i < 8 →
    (byteLane r i).toInt = max (-128) (min 127 ((byteLane a i).toInt + (byteLane b i).toInt))) ∧
  PackedForm .paddsw 0xED (fun a b r => ∀ i, i < 4 →
    (wordLane r i).toInt = max (-32768) (min 32767 ((wordLane a i).toInt + (wordLane b i).toInt)))

/-- PADDUSB, PADDUSW: lane-wise unsigned addition saturated to 255 and 65535 (R116, R117). -/
def Obligations.PackedAddUnsignedSaturation : Prop :=
  PackedForm .paddusb 0xDC (fun a b r => ∀ i, i < 8 →
    (byteLane r i).toNat = min 255 ((byteLane a i).toNat + (byteLane b i).toNat)) ∧
  PackedForm .paddusw 0xDD (fun a b r => ∀ i, i < 4 →
    (wordLane r i).toNat = min 65535 ((wordLane a i).toNat + (wordLane b i).toNat))

/-- PSUBB, PSUBW, PSUBD: lane-wise destination minus source modulo 2^8, 2^16, 2^32 (R118 to R120). -/
def Obligations.PackedSubtractWraparound : Prop :=
  PackedForm .psubb 0xF8 (fun a b r => ∀ i, i < 8 →
    byteLane r i = BitVec.ofInt 8 ((byteLane a i).toNat - (byteLane b i).toNat : Int)) ∧
  PackedForm .psubw 0xF9 (fun a b r => ∀ i, i < 4 →
    wordLane r i = BitVec.ofInt 16 ((wordLane a i).toNat - (wordLane b i).toNat : Int)) ∧
  PackedForm .psubd 0xFA (fun a b r => ∀ i, i < 2 →
    dwordLane r i = BitVec.ofInt 32 ((dwordLane a i).toNat - (dwordLane b i).toNat : Int))

/-- PSUBSB, PSUBSW: lane-wise signed destination minus source, saturated (R121, R122). -/
def Obligations.PackedSubtractSignedSaturation : Prop :=
  PackedForm .psubsb 0xE8 (fun a b r => ∀ i, i < 8 →
    (byteLane r i).toInt = max (-128) (min 127 ((byteLane a i).toInt - (byteLane b i).toInt))) ∧
  PackedForm .psubsw 0xE9 (fun a b r => ∀ i, i < 4 →
    (wordLane r i).toInt = max (-32768) (min 32767 ((wordLane a i).toInt - (wordLane b i).toInt)))

/-- PSUBUSB, PSUBUSW: lane-wise unsigned destination minus source, 0 where the source is greater (R123, R124). -/
def Obligations.PackedSubtractUnsignedSaturation : Prop :=
  PackedForm .psubusb 0xD8 (fun a b r => ∀ i, i < 8 →
    (byteLane r i).toNat =
      if (byteLane a i).toNat < (byteLane b i).toNat then 0 else (byteLane a i).toNat - (byteLane b i).toNat) ∧
  PackedForm .psubusw 0xD9 (fun a b r => ∀ i, i < 4 →
    (wordLane r i).toNat =
      if (wordLane a i).toNat < (wordLane b i).toNat then 0 else (wordLane a i).toNat - (wordLane b i).toNat)

/-! ## Packed multiply (41_arith_multiply.md) -/

/-- PMADDWD: doubleword i is the sum of the signed products of words 2i and 2i+1 modulo 2^32; the sum is exact but for the
one case that all four words are 8000h, where the result is 8000_0000h (R131). That adjacent products are summed is the
spec's own reading (D13, log entry 28). -/
def Obligations.MultiplyAddAdjacentWords : Prop :=
  PackedForm .pmaddwd 0xF5 (fun a b r => ∀ i, i < 2 →
    dwordLane r i = BitVec.ofInt 32
      ((wordLane a (2 * i)).toInt * (wordLane b (2 * i)).toInt +
        (wordLane a (2 * i + 1)).toInt * (wordLane b (2 * i + 1)).toInt) ∧
    (if wordLane a (2 * i) = 0x8000 ∧ wordLane b (2 * i) = 0x8000 ∧ wordLane a (2 * i + 1) = 0x8000 ∧
        wordLane b (2 * i + 1) = 0x8000 then dwordLane r i = 0x80000000
     else (dwordLane r i).toInt =
      (wordLane a (2 * i)).toInt * (wordLane b (2 * i)).toInt +
        (wordLane a (2 * i + 1)).toInt * (wordLane b (2 * i + 1)).toInt))

/-- PMULHW and PMULLW: the high half (the floor of the signed product over 65536) and the low half of each product, the
latter the same for signed and unsigned operands (R132, R133). -/
def Obligations.MultiplyHighAndLow : Prop :=
  PackedForm .pmulhw 0xE5 (fun a b r => ∀ i, i < 4 →
    (wordLane r i).toInt = ((wordLane a i).toInt * (wordLane b i).toInt) / 65536) ∧
  PackedForm .pmullw 0xD5 (fun a b r => ∀ i, i < 4 →
    wordLane r i = BitVec.ofInt 16 ((wordLane a i).toInt * (wordLane b i).toInt) ∧
    wordLane r i = BitVec.ofNat 16 ((wordLane a i).toNat * (wordLane b i).toNat))

/-! ## EMMS (42_emms.md) -/

/-- EMMS: tag word FFFFh, TOP 0, pc past it, the register contents and everything else unchanged (R28, R140; TOP by R36, log
entry 15). -/
def Obligations.EmmsEmptiesTags : Prop :=
  ∀ (p : Prefixes) (s : State),
    encode (.emms p) = p.map Pfx.byte ++ [0x0F, 0x77] ∧
    (Ready p s → exec (.emms p) s =
      .next { s with ftw := 0xFFFF, top := 0, pc := s.pc + BitVec.ofNat 32 (p.length + 2) }) ∧
    RaisesOnOneCause (.emms p) s

/-! ## Compare (43_compare.md) -/

/-- PCMPEQB, PCMPEQW, PCMPEQD: a lane of ones where the operands' lanes are equal, of zeros elsewhere (R146 to R148). -/
def Obligations.CompareEqualMasks : Prop :=
  PackedForm .pcmpeqb 0x74 (fun a b r => ∀ i, i < 8 →
    byteLane r i = if byteLane a i = byteLane b i then 0xFF else 0x00) ∧
  PackedForm .pcmpeqw 0x75 (fun a b r => ∀ i, i < 4 →
    wordLane r i = if wordLane a i = wordLane b i then 0xFFFF else 0x0000) ∧
  PackedForm .pcmpeqd 0x76 (fun a b r => ∀ i, i < 2 →
    dwordLane r i = if dwordLane a i = dwordLane b i then 0xFFFFFFFF else 0x00000000)

/-- PCMPGTB, PCMPGTW, PCMPGTD: a lane of ones where the destination's lane is greater as a signed number, of zeros
elsewhere (R149 to R151). -/
def Obligations.CompareGreaterMasks : Prop :=
  PackedForm .pcmpgtb 0x64 (fun a b r => ∀ i, i < 8 →
    byteLane r i = if (byteLane b i).toInt < (byteLane a i).toInt then 0xFF else 0x00) ∧
  PackedForm .pcmpgtw 0x65 (fun a b r => ∀ i, i < 4 →
    wordLane r i = if (wordLane b i).toInt < (wordLane a i).toInt then 0xFFFF else 0x0000) ∧
  PackedForm .pcmpgtd 0x66 (fun a b r => ∀ i, i < 2 →
    dwordLane r i = if (dwordLane b i).toInt < (dwordLane a i).toInt then 0xFFFFFFFF else 0x00000000)

/-! ## Convert (44_convert.md) -/

/-- PACKSSDW, PACKSSWB, PACKUSWB: the destination's elements, saturated, fill the low half in order, the source's the high
half (R155 to R158). -/
def Obligations.PackWithSaturation : Prop :=
  PackedForm .packssdw 0x6B (fun a b r => ∀ i, i < 2 →
    (wordLane r i).toInt = max (-32768) (min 32767 (dwordLane a i).toInt) ∧
    (wordLane r (2 + i)).toInt = max (-32768) (min 32767 (dwordLane b i).toInt)) ∧
  PackedForm .packsswb 0x63 (fun a b r => ∀ i, i < 4 →
    (byteLane r i).toInt = max (-128) (min 127 (wordLane a i).toInt) ∧
    (byteLane r (4 + i)).toInt = max (-128) (min 127 (wordLane b i).toInt)) ∧
  PackedForm .packuswb 0x67 (fun a b r => ∀ i, i < 4 →
    ((byteLane r i).toNat : Int) = max 0 (min 255 (wordLane a i).toInt) ∧
    ((byteLane r (4 + i)).toNat : Int) = max 0 (min 255 (wordLane b i).toInt))

/-- PUNPCKHBW, PUNPCKHWD, PUNPCKHDQ: the elements of the high halves interleaved, the destination's element below the
source's (R159 to R162). -/
def Obligations.UnpackHighHalves : Prop :=
  PackedForm .punpckhbw 0x68 (fun a b r => ∀ i, i < 4 →
    byteLane r (2 * i) = byteLane a (4 + i) ∧ byteLane r (2 * i + 1) = byteLane b (4 + i)) ∧
  PackedForm .punpckhwd 0x69 (fun a b r => ∀ i, i < 2 →
    wordLane r (2 * i) = wordLane a (2 + i) ∧ wordLane r (2 * i + 1) = wordLane b (2 + i)) ∧
  PackedForm .punpckhdq 0x6A (fun a b r => dwordLane r 0 = dwordLane a 1 ∧ dwordLane r 1 = dwordLane b 1)

/-- PUNPCKLBW, PUNPCKLWD, PUNPCKLDQ: the elements of the low halves interleaved, the destination's element below the
source's (R159, R163 to R165). That a memory source is read and checked as 8 bytes is the spec's own decision (D24, log
entry 31). -/
def Obligations.UnpackLowHalves : Prop :=
  PackedForm .punpcklbw 0x60 (fun a b r => ∀ i, i < 4 →
    byteLane r (2 * i) = byteLane a i ∧ byteLane r (2 * i + 1) = byteLane b i) ∧
  PackedForm .punpcklwd 0x61 (fun a b r => ∀ i, i < 2 →
    wordLane r (2 * i) = wordLane a i ∧ wordLane r (2 * i + 1) = wordLane b i) ∧
  PackedForm .punpckldq 0x62 (fun a b r => dwordLane r 0 = dwordLane a 0 ∧ dwordLane r 1 = dwordLane b 0)

/-! ## Logical (45_logical.md) -/

/-- PAND, PANDN, POR, PXOR bit by bit; PANDN inverts the destination (R170 to R174). -/
def Obligations.LogicalOperations : Prop :=
  PackedForm .pand 0xDB (fun a b r => ∀ i, i < 64 → r.getLsbD i = (a.getLsbD i && b.getLsbD i)) ∧
  PackedForm .pandn 0xDF (fun a b r => ∀ i, i < 64 → r.getLsbD i = (!a.getLsbD i && b.getLsbD i)) ∧
  PackedForm .por 0xEB (fun a b r => ∀ i, i < 64 → r.getLsbD i = (a.getLsbD i || b.getLsbD i)) ∧
  PackedForm .pxor 0xEF (fun a b r => ∀ i, i < 64 → r.getLsbD i = (a.getLsbD i ^^ b.getLsbD i))

/-! ## Move (46_move.md) -/

/-- MOVD mmreg1, reg32/mem32: the 32 bits of the source zero-extended, in the register form those of x[rm] (R181). -/
def Obligations.MovdLoadZeroExtends : Prop :=
  ∀ (p : Prefixes) (dst : MmReg) (src : RM Gpr) (r : Gpr) (s : State),
    encode (.movdLoad p dst src) = p.map Pfx.byte ++ 0x0F :: 0x6E :: encRM Gpr.bits dst.bits src ∧
    src32 p s (.reg r) = .ok (s.x r) ∧
    (Ready p s → ∀ v, src32 p s src = .ok v →
      ∃ t, exec (.movdLoad p dst src) s = .next t ∧ WroteMm s t dst ((0 : BitVec 32) ++ v) (lenRM p src)) ∧
    (Ready p s → ∀ v, src32 p s src = .error (.raise v) → exec (.movdLoad p dst src) s = .next (s.raised v)) ∧
    RaisesOnOneCause (.movdLoad p dst src) s

/-- MOVD reg32/mem32, mmreg1: bits 31:0 of MM[reg] to the general register or to 4 bytes of memory, tags valid, nothing
else (R182; the byte order is R58, log entry 36; TOP is R36, log entry 15). -/
def Obligations.MovdStoreLowDoubleword : Prop :=
  ∀ (p : Prefixes) (r : Gpr) (m : MemOp) (src : MmReg) (s : State),
    encode (.movdStore p (.reg r) src) = p.map Pfx.byte ++ 0x0F :: 0x7E :: encRM Gpr.bits src.bits (.reg r) ∧
    encode (.movdStore p (.mem m) src) = p.map Pfx.byte ++ 0x0F :: 0x7E :: encRM Gpr.bits src.bits (.mem m) ∧
    (Ready p s → exec (.movdStore p (.reg r) src) s =
      .next { s with
        gpr := s.gpr.set r ((s.mm src).extractLsb' 0 32)
        ftw := 0x0000
        top := 0
        pc := s.pc + BitVec.ofNat 32 (p.length + 3) }) ∧
    (Ready p s → ∀ ps, accessAddrs s (segmentOf p m) (offsetOf s m) 4 .write = .ok ps →
      ∃ mem', exec (.movdStore p (.mem m) src) s =
          .next { s with
            mem := mem'
            ftw := 0x0000
            top := 0
            pc := s.pc + BitVec.ofNat 32 (p.length + 3 + m.bytes) } ∧
        (∀ a, a ∉ ps → mem'.read a = s.mem.read a) ∧
        (ps.Nodup → ∀ k a, ps[k]? = some a → mem'.read a = (s.mm src).extractLsb' (8 * k) 8))

/-- MOVQ mmreg1, mmreg2/mem64: the 64 bits of the source (R183). -/
def Obligations.MovqLoadCopies : Prop :=
  PackedForm .movqLoad 0x6F (fun _ b r => r = b) ∧
  ∀ (p : Prefixes) (r : MmReg) (s : State), src64 p s (.reg r) = .ok (s.mm r)

/-- MOVQ mmreg2/mem64, mmreg1: the 64 bits of MM[reg] to the MMX register or to 8 bytes of memory, tags valid, nothing
else (R184; the byte order is R58, log entry 36; TOP is R36, log entry 15). -/
def Obligations.MovqStoreCopies : Prop :=
  ∀ (p : Prefixes) (r : MmReg) (m : MemOp) (src : MmReg) (s : State),
    encode (.movqStore p (.reg r) src) = p.map Pfx.byte ++ 0x0F :: 0x7F :: encRM MmReg.bits src.bits (.reg r) ∧
    encode (.movqStore p (.mem m) src) = p.map Pfx.byte ++ 0x0F :: 0x7F :: encRM MmReg.bits src.bits (.mem m) ∧
    (Ready p s → ∃ t, exec (.movqStore p (.reg r) src) s = .next t ∧ WroteMm s t r (s.mm src) (p.length + 3)) ∧
    (Ready p s → ∀ ps, accessAddrs s (segmentOf p m) (offsetOf s m) 8 .write = .ok ps →
      ∃ mem', exec (.movqStore p (.mem m) src) s =
          .next { s with
            mem := mem'
            ftw := 0x0000
            top := 0
            pc := s.pc + BitVec.ofNat 32 (p.length + 3 + m.bytes) } ∧
        (∀ a, a ∉ ps → mem'.read a = s.mem.read a) ∧
        (ps.Nodup → ∀ k a, ps[k]? = some a → mem'.read a = (s.mm src).extractLsb' (8 * k) 8))

/-- The two encodings of MOVQ between two MMX registers differ in their bytes and have the same effect in every state
(R98). -/
def Obligations.TwoEncodingsOfRegisterMovq : Prop :=
  ∀ (p : Prefixes) (dst src : MmReg) (s : State),
    encode (.movqLoad p dst (.reg src)) ≠ encode (.movqStore p (.reg dst) src) ∧
    exec (.movqLoad p dst (.reg src)) s = exec (.movqStore p (.reg dst) src) s

/-! ## Shift (47_shift.md): the count is the whole source operand or imm8, not reduced (R191, R209)

Counts of the element width or more are the spec's own decision (D12, D31), log entry 29. -/

/-- PSLLW, PSLLD, PSLLQ by register or memory: each lane times 2^n modulo 2^N, so 0 for n of N or more (R192, R194,
R196; log entry 29; that a memory count is read and checked as 8 bytes: D24, log entry 31). -/
def Obligations.ShiftLeftLogical : Prop :=
  PackedForm .psllw 0xF1 (fun a c r => ∀ i, i < 4 →
    wordLane r i = BitVec.ofNat 16 ((wordLane a i).toNat * 2 ^ c.toNat) ∧ (16 ≤ c.toNat → wordLane r i = 0)) ∧
  PackedForm .pslld 0xF2 (fun a c r => ∀ i, i < 2 →
    dwordLane r i = BitVec.ofNat 32 ((dwordLane a i).toNat * 2 ^ c.toNat) ∧ (32 ≤ c.toNat → dwordLane r i = 0)) ∧
  PackedForm .psllq 0xF3 (fun a c r => r = BitVec.ofNat 64 (a.toNat * 2 ^ c.toNat) ∧ (64 ≤ c.toNat → r = 0))

/-- PSRAW, PSRAD by register or memory: the floor of each signed lane over 2^n, so all sign bits for n of N or more (R198,
R200; log entry 29; that a memory count is read and checked as 8 bytes: D24, log entry 31). -/
def Obligations.ShiftRightArithmetic : Prop :=
  PackedForm .psraw 0xE1 (fun a c r => ∀ i, i < 4 →
    (wordLane r i).toInt = (wordLane a i).toInt / 2 ^ c.toNat ∧
    (16 ≤ c.toNat → wordLane r i = if (wordLane a i).toInt < 0 then 0xFFFF else 0)) ∧
  PackedForm .psrad 0xE2 (fun a c r => ∀ i, i < 2 →
    (dwordLane r i).toInt = (dwordLane a i).toInt / 2 ^ c.toNat ∧
    (32 ≤ c.toNat → dwordLane r i = if (dwordLane a i).toInt < 0 then 0xFFFFFFFF else 0))

/-- PSRLW, PSRLD, PSRLQ by register or memory: the floor of each unsigned lane over 2^n (R202, R204, R206; log entry 29;
that a memory count is read and checked as 8 bytes: D24, log entry 31). -/
def Obligations.ShiftRightLogical : Prop :=
  PackedForm .psrlw 0xD1 (fun a c r => ∀ i, i < 4 →
    (wordLane r i).toNat = (wordLane a i).toNat / 2 ^ c.toNat ∧ (16 ≤ c.toNat → wordLane r i = 0)) ∧
  PackedForm .psrld 0xD2 (fun a c r => ∀ i, i < 2 →
    (dwordLane r i).toNat = (dwordLane a i).toNat / 2 ^ c.toNat ∧ (32 ≤ c.toNat → dwordLane r i = 0)) ∧
  PackedForm .psrlq 0xD3 (fun a c r => r.toNat = a.toNat / 2 ^ c.toNat ∧ (64 ≤ c.toNat → r = 0))

/-- PSLLW, PSLLD, PSLLQ by imm8 (R193, R195, R197). -/
def Obligations.ShiftLeftLogicalImmediate : Prop :=
  ImmForm .psllwImm 0x71 6 (fun a n r => ∀ i, i < 4 →
    wordLane r i = BitVec.ofNat 16 ((wordLane a i).toNat * 2 ^ n) ∧ (16 ≤ n → wordLane r i = 0)) ∧
  ImmForm .pslldImm 0x72 6 (fun a n r => ∀ i, i < 2 →
    dwordLane r i = BitVec.ofNat 32 ((dwordLane a i).toNat * 2 ^ n) ∧ (32 ≤ n → dwordLane r i = 0)) ∧
  ImmForm .psllqImm 0x73 6 (fun a n r => r = BitVec.ofNat 64 (a.toNat * 2 ^ n) ∧ (64 ≤ n → r = 0))

/-- PSRAW, PSRAD by imm8 (R199, R201). -/
def Obligations.ShiftRightArithmeticImmediate : Prop :=
  ImmForm .psrawImm 0x71 4 (fun a n r => ∀ i, i < 4 →
    (wordLane r i).toInt = (wordLane a i).toInt / 2 ^ n ∧
    (16 ≤ n → wordLane r i = if (wordLane a i).toInt < 0 then 0xFFFF else 0)) ∧
  ImmForm .psradImm 0x72 4 (fun a n r => ∀ i, i < 2 →
    (dwordLane r i).toInt = (dwordLane a i).toInt / 2 ^ n ∧
    (32 ≤ n → dwordLane r i = if (dwordLane a i).toInt < 0 then 0xFFFFFFFF else 0))

/-- PSRLW, PSRLD, PSRLQ by imm8 (R203, R205, R207). -/
def Obligations.ShiftRightLogicalImmediate : Prop :=
  ImmForm .psrlwImm 0x71 2 (fun a n r => ∀ i, i < 4 →
    (wordLane r i).toNat = (wordLane a i).toNat / 2 ^ n ∧ (16 ≤ n → wordLane r i = 0)) ∧
  ImmForm .psrldImm 0x72 2 (fun a n r => ∀ i, i < 2 →
    (dwordLane r i).toNat = (dwordLane a i).toNat / 2 ^ n ∧ (32 ≤ n → dwordLane r i = 0)) ∧
  ImmForm .psrlqImm 0x73 2 (fun a n r => r.toNat = a.toNat / 2 ^ n ∧ (64 ≤ n → r = 0))

/-! ## CPUID (48_host_instructions.md) -/

/-- CPUID completes in every state: function 0 gives the vendor string in EBX, EDX, ECX, functions 1 and 8000_0001h give
EDX bit 23 = 1, every other result is `cpuid_other` for whatever value it has; nothing but EAX, EBX, ECX, EDX and pc
changes (R210 to R213). That EAX of function 0 is at least 1 is from general knowledge (R211; log entry 20); that prefixes
are ignored is the model's (log entry 23). -/
def Obligations.CpuidResults : Prop :=
  ∀ (p : Prefixes) (s : State), ∃ g : GprRegs,
    exec (.cpuid p) s = .next { s with gpr := g, pc := s.pc + BitVec.ofNat 32 (p.length + 2) } ∧
    g.esp = s.gpr.esp ∧ g.ebp = s.gpr.ebp ∧ g.esi = s.gpr.esi ∧ g.edi = s.gpr.edi ∧
    (s.gpr.eax = 0 → g.ebx = 0x68747541 ∧ g.edx = 0x69746E65 ∧ g.ecx = 0x444D4163 ∧ 1 ≤ g.eax.toNat) ∧
    ((s.gpr.eax = 1 ∨ s.gpr.eax = 0x80000001) →
      g.edx.getLsbD 23 = true ∧
      (∀ k, k ≠ 23 → g.edx.getLsbD k = (Config.cpuidOther s.gpr.eax .edx).getLsbD k) ∧
      g.eax = Config.cpuidOther s.gpr.eax .eax ∧ g.ebx = Config.cpuidOther s.gpr.eax .ebx ∧
      g.ecx = Config.cpuidOther s.gpr.eax .ecx) ∧
    (s.gpr.eax ≠ 0 → s.gpr.eax ≠ 1 → s.gpr.eax ≠ 0x80000001 →
      g.eax = Config.cpuidOther s.gpr.eax .eax ∧ g.ebx = Config.cpuidOther s.gpr.eax .ebx ∧
      g.ecx = Config.cpuidOther s.gpr.eax .ecx ∧ g.edx = Config.cpuidOther s.gpr.eax .edx)

/-! ## The sample instructions (48_host_instructions.md R214) -/

/-- The sample instructions do what R214's table says, each with its whole next state: PUSHFD and POPFD move EFLAGS over the
stack, POPFD writing the bits software may change, ID among them, and no other; CMP and TEST set ZF; JZ and JNZ follow
it. The values that XOR, CMP and TEST give the other arithmetic flags are free and nothing is said of them, nor of the
model's counter for them (log entry 21). Which bits software may change is the platform's, whatever the CPL (log entry
22); positions of the flags: log entry 17; 32-bit stack operations: log entry 42. -/
def Obligations.SampleInstructions : Prop :=
  ∀ (s : State) (imm : DWord) (rel : Byte),
    (∀ m, memWrite s .ss (s.x .esp - 4) 4 s.eflags.toNat = .ok m →
      execHost .pushfd s =
        .next { s with mem := m, gpr := s.gpr.set .esp (s.x .esp - 4), pc := s.pc + 1 }) ∧
    (∀ m, memWrite s .ss (s.x .esp - 4) 4 (s.x .eax).toNat = .ok m →
      execHost .pushEax s =
        .next { s with mem := m, gpr := s.gpr.set .esp (s.x .esp - 4), pc := s.pc + 1 }) ∧
    (∀ v, memRead s .ss (s.x .esp) 4 = .ok v →
      execHost .popEax s =
        .next { s with gpr := (s.gpr.set .esp (s.x .esp + 4)).set .eax (BitVec.ofNat 32 v), pc := s.pc + 1 }) ∧
    (∀ v, memRead s .ss (s.x .esp) 4 = .ok v →
      ∃ e : DWord,
        execHost .popfd s = .next { s with eflags := e, gpr := s.gpr.set .esp (s.x .esp + 4), pc := s.pc + 1 } ∧
        ∀ k, e.getLsbD k =
          if k = 21 ∨ s.platform.popfdMask.getLsbD k = true then (BitVec.ofNat 32 v).getLsbD k
          else s.eflags.getLsbD k) ∧
    execHost .movEbxEax s = .next { s with gpr := s.gpr.set .ebx (s.x .eax), pc := s.pc + 2 } ∧
    execHost (.movEax imm) s = .next { s with gpr := s.gpr.set .eax imm, pc := s.pc + 5 } ∧
    (∃ e c, execHost (.xorEax imm) s =
        .next { s with eflags := e, freeCount := c, gpr := s.gpr.set .eax (s.x .eax ^^^ imm), pc := s.pc + 5 } ∧
      ∀ k, k ∉ arithFlags → e.getLsbD k = s.eflags.getLsbD k) ∧
    (∃ e c, execHost .cmpEaxEbx s = .next { s with eflags := e, freeCount := c, pc := s.pc + 2 } ∧
      e.getLsbD 6 = decide (s.x .eax = s.x .ebx) ∧ ∀ k, k ∉ arithFlags → e.getLsbD k = s.eflags.getLsbD k) ∧
    (∃ e c, execHost (.testEdx imm) s = .next { s with eflags := e, freeCount := c, pc := s.pc + 6 } ∧
      e.getLsbD 6 = decide (s.x .edx &&& imm = 0) ∧ ∀ k, k ∉ arithFlags → e.getLsbD k = s.eflags.getLsbD k) ∧
    execHost (.jz rel) s =
      .next { s with pc := if s.zf then s.pc + 2 + rel.signExtend 32 else s.pc + 2 } ∧
    execHost (.jnz rel) s =
      .next { s with pc := if s.zf then s.pc + 2 else s.pc + 2 + rel.signExtend 32 }

/-! ## Steps and the invariant -/

/-- Where the program has control and the bytes in the program text at pc decode to an instruction whose end does not
wrap (log entries 12 and 47), the step is `exec` of it; where they are a sample instruction, the step is its meaning (R13, R99, R100). Where the
environment has interrupt 6 of that instruction with CR0.EM = 1 and emulates (R233), the step is `exec` of it with
EM = 0, CR0 being as before afterwards, unless it raises 6 then too: the model's choice, log entry 45. -/
def Obligations.StepRunsDecoded : Prop :=
  (∀ (s : State), s.control = .running →
    (∀ i rest, decode s.defaultAddrSize (fetchWindow s) = .ok (i, rest) →
      pcFits s ((fetchWindow s).length - rest.length) = true → step s = exec i s) ∧
    (∀ e h rest, decode s.defaultAddrSize (fetchWindow s) = .error e →
      decodeHost s.defaultAddrSize (fetchWindow s) = some (h, rest) →
      pcFits s ((fetchWindow s).length - rest.length) = true → step s = execHost h s)) ∧
  ∀ (s t : State) (i : Instr) (rest : List Byte),
    s.control = .environment ⟨.invalidOpcode, s.pc⟩ → s.emulator = true → s.em = true →
    decode s.defaultAddrSize (fetchWindow s) = .ok (i, rest) →
    pcFits s ((fetchWindow s).length - rest.length) = true →
    exec i { s with control := .running, cr0 := s.cr0 &&& ~~~0x4 } = .next t →
    (∀ e, t.control = .environment e → e.vector ≠ .invalidOpcode) → step s = .next { t with cr0 := s.cr0 }

/-- The encoding of a well-formed instruction that stands in the program text at pc is what the step runs, whatever bytes
follow it (R80, R99). -/
def Obligations.StepRunsEncodedInstruction : Prop :=
  ∀ (s : State) (i : Instr), s.control = .running → i.wf s.defaultAddrSize = true →
    (∀ k, (h : k < (encode i).length) → fetchByte s k = some (encode i)[k]) →
    pcFits s (encode i).length = true → step s = exec i s

/-- A step leaves a state that satisfies the invariant if it began in one: memory in canonical form, V86 mode at CPL 3, a
pending exception naming the unchanged pc. (The representation is the model's: log entries 4, 5, 37.) -/
def Obligations.StepKeepsInvariant : Prop :=
  ∀ (s t : State), s.Inv → step s = .next t → t.Inv

/-- The state after reset satisfies the invariant. (The reset values themselves are the model's choice, log entries 1 to
4.) -/
def Obligations.ResetSatisfiesInvariant : Prop := State.reset.Inv

/-- No step changes the program text: the ranges stay, and every byte in them reads as before (R68; the refusal of such
stores is log entry 10). -/
def Obligations.ProgramTextNeverChanges : Prop :=
  ∀ (s t : State), step s = .next t →
    t.text = s.text ∧ ∀ a, inRanges s.text a = true → t.mem.read a = s.mem.read a

/-- No step changes mode, privilege level, CR0 but for TS, segments, translation, devices or the platform, and TS and
FPpending change only in the step of the interrupt-7 handler (R25, R32, R34, R35, R241). That the handler is one step,
and the emulation of R233 another, is the model's choice (log entries 6 and 45), as is that a task switch is none (log
entry 35). -/
def Obligations.StepKeepsSystemRegisters : Prop :=
  ∀ (s t : State), step s = .next t →
    t.mode = s.mode ∧ t.cpl = s.cpl ∧ t.segs = s.segs ∧ t.paging = s.paging ∧ t.devices = s.devices ∧
    t.translation = s.translation ∧ t.emulator = s.emulator ∧
    t.platform = s.platform ∧ t.defaultAddrSize = s.defaultAddrSize ∧
    (∀ k, k ≠ 3 → t.cr0.getLsbD k = s.cr0.getLsbD k) ∧
    (t.cr0 ≠ s.cr0 ∨ t.fpPending ≠ s.fpPending → ∃ e, s.control = .environment e ∧ e.vector = .deviceNotAvailable)
end

