-- ==== Sys2Proof/Laws/State.lean ====
section
/-! SUPPORT. One lemma for each field and each update of the state, true by rfl; the register files read after a write; the
state a completed MMX instruction leaves. -/

namespace Sys2Proof.Machine

open Sys2Proof

@[simp] theorem State.setMm_fpr (s : State) (r : MmReg) (v : QWord) : (s.setMm r v).fpr = s.fpr.set r (mmImage v) := rfl
@[simp] theorem State.setMm_ftw (s : State) (r : MmReg) (v : QWord) : (s.setMm r v).ftw = s.ftw := rfl
@[simp] theorem State.setMm_top (s : State) (r : MmReg) (v : QWord) : (s.setMm r v).top = s.top := rfl
@[simp] theorem State.setMm_gpr (s : State) (r : MmReg) (v : QWord) : (s.setMm r v).gpr = s.gpr := rfl
@[simp] theorem State.setMm_pc (s : State) (r : MmReg) (v : QWord) : (s.setMm r v).pc = s.pc := rfl
@[simp] theorem State.setMm_eflags (s : State) (r : MmReg) (v : QWord) : (s.setMm r v).eflags = s.eflags := rfl
@[simp] theorem State.setMm_cr0 (s : State) (r : MmReg) (v : QWord) : (s.setMm r v).cr0 = s.cr0 := rfl
@[simp] theorem State.setMm_segs (s : State) (r : MmReg) (v : QWord) : (s.setMm r v).segs = s.segs := rfl
@[simp] theorem State.setMm_mode (s : State) (r : MmReg) (v : QWord) : (s.setMm r v).mode = s.mode := rfl
@[simp] theorem State.setMm_cpl (s : State) (r : MmReg) (v : QWord) : (s.setMm r v).cpl = s.cpl := rfl
@[simp] theorem State.setMm_fpPending (s : State) (r : MmReg) (v : QWord) : (s.setMm r v).fpPending = s.fpPending := rfl
@[simp] theorem State.setMm_ferr (s : State) (r : MmReg) (v : QWord) : (s.setMm r v).ferr = s.ferr := rfl
@[simp] theorem State.setMm_mem (s : State) (r : MmReg) (v : QWord) : (s.setMm r v).mem = s.mem := rfl
@[simp] theorem State.setMm_defaultAddrSize (s : State) (r : MmReg) (v : QWord) : (s.setMm r v).defaultAddrSize = s.defaultAddrSize := rfl
@[simp] theorem State.setMm_paging (s : State) (r : MmReg) (v : QWord) : (s.setMm r v).paging = s.paging := rfl
@[simp] theorem State.setMm_translation (s : State) (r : MmReg) (v : QWord) : (s.setMm r v).translation = s.translation := rfl
@[simp] theorem State.setMm_text (s : State) (r : MmReg) (v : QWord) : (s.setMm r v).text = s.text := rfl
@[simp] theorem State.setMm_devices (s : State) (r : MmReg) (v : QWord) : (s.setMm r v).devices = s.devices := rfl
@[simp] theorem State.setMm_control (s : State) (r : MmReg) (v : QWord) : (s.setMm r v).control = s.control := rfl
@[simp] theorem State.setMm_os (s : State) (r : MmReg) (v : QWord) : (s.setMm r v).os = s.os := rfl
@[simp] theorem State.setMm_emulator (s : State) (r : MmReg) (v : QWord) : (s.setMm r v).emulator = s.emulator := rfl
@[simp] theorem State.setMm_platform (s : State) (r : MmReg) (v : QWord) : (s.setMm r v).platform = s.platform := rfl
@[simp] theorem State.setMm_freeCount (s : State) (r : MmReg) (v : QWord) : (s.setMm r v).freeCount = s.freeCount := rfl

@[simp] theorem State.setX_fpr (s : State) (r : Gpr) (v : DWord) : (s.setX r v).fpr = s.fpr := rfl
@[simp] theorem State.setX_ftw (s : State) (r : Gpr) (v : DWord) : (s.setX r v).ftw = s.ftw := rfl
@[simp] theorem State.setX_top (s : State) (r : Gpr) (v : DWord) : (s.setX r v).top = s.top := rfl
@[simp] theorem State.setX_gpr (s : State) (r : Gpr) (v : DWord) : (s.setX r v).gpr = s.gpr.set r v := rfl
@[simp] theorem State.setX_pc (s : State) (r : Gpr) (v : DWord) : (s.setX r v).pc = s.pc := rfl
@[simp] theorem State.setX_eflags (s : State) (r : Gpr) (v : DWord) : (s.setX r v).eflags = s.eflags := rfl
@[simp] theorem State.setX_cr0 (s : State) (r : Gpr) (v : DWord) : (s.setX r v).cr0 = s.cr0 := rfl
@[simp] theorem State.setX_segs (s : State) (r : Gpr) (v : DWord) : (s.setX r v).segs = s.segs := rfl
@[simp] theorem State.setX_mode (s : State) (r : Gpr) (v : DWord) : (s.setX r v).mode = s.mode := rfl
@[simp] theorem State.setX_cpl (s : State) (r : Gpr) (v : DWord) : (s.setX r v).cpl = s.cpl := rfl
@[simp] theorem State.setX_fpPending (s : State) (r : Gpr) (v : DWord) : (s.setX r v).fpPending = s.fpPending := rfl
@[simp] theorem State.setX_ferr (s : State) (r : Gpr) (v : DWord) : (s.setX r v).ferr = s.ferr := rfl
@[simp] theorem State.setX_mem (s : State) (r : Gpr) (v : DWord) : (s.setX r v).mem = s.mem := rfl
@[simp] theorem State.setX_defaultAddrSize (s : State) (r : Gpr) (v : DWord) : (s.setX r v).defaultAddrSize = s.defaultAddrSize := rfl
@[simp] theorem State.setX_paging (s : State) (r : Gpr) (v : DWord) : (s.setX r v).paging = s.paging := rfl
@[simp] theorem State.setX_translation (s : State) (r : Gpr) (v : DWord) : (s.setX r v).translation = s.translation := rfl
@[simp] theorem State.setX_text (s : State) (r : Gpr) (v : DWord) : (s.setX r v).text = s.text := rfl
@[simp] theorem State.setX_devices (s : State) (r : Gpr) (v : DWord) : (s.setX r v).devices = s.devices := rfl
@[simp] theorem State.setX_control (s : State) (r : Gpr) (v : DWord) : (s.setX r v).control = s.control := rfl
@[simp] theorem State.setX_os (s : State) (r : Gpr) (v : DWord) : (s.setX r v).os = s.os := rfl
@[simp] theorem State.setX_emulator (s : State) (r : Gpr) (v : DWord) : (s.setX r v).emulator = s.emulator := rfl
@[simp] theorem State.setX_platform (s : State) (r : Gpr) (v : DWord) : (s.setX r v).platform = s.platform := rfl
@[simp] theorem State.setX_freeCount (s : State) (r : Gpr) (v : DWord) : (s.setX r v).freeCount = s.freeCount := rfl

@[simp] theorem State.setTs_fpr (s : State) : s.setTs.fpr = s.fpr := rfl
@[simp] theorem State.setTs_ftw (s : State) : s.setTs.ftw = s.ftw := rfl
@[simp] theorem State.setTs_top (s : State) : s.setTs.top = s.top := rfl
@[simp] theorem State.setTs_gpr (s : State) : s.setTs.gpr = s.gpr := rfl
@[simp] theorem State.setTs_pc (s : State) : s.setTs.pc = s.pc := rfl
@[simp] theorem State.setTs_eflags (s : State) : s.setTs.eflags = s.eflags := rfl
@[simp] theorem State.setTs_cr0 (s : State) : s.setTs.cr0 = s.cr0 ||| tsMask := rfl
@[simp] theorem State.setTs_segs (s : State) : s.setTs.segs = s.segs := rfl
@[simp] theorem State.setTs_mode (s : State) : s.setTs.mode = s.mode := rfl
@[simp] theorem State.setTs_cpl (s : State) : s.setTs.cpl = s.cpl := rfl
@[simp] theorem State.setTs_fpPending (s : State) : s.setTs.fpPending = s.fpPending := rfl
@[simp] theorem State.setTs_ferr (s : State) : s.setTs.ferr = s.ferr := rfl
@[simp] theorem State.setTs_mem (s : State) : s.setTs.mem = s.mem := rfl
@[simp] theorem State.setTs_defaultAddrSize (s : State) : s.setTs.defaultAddrSize = s.defaultAddrSize := rfl
@[simp] theorem State.setTs_paging (s : State) : s.setTs.paging = s.paging := rfl
@[simp] theorem State.setTs_translation (s : State) : s.setTs.translation = s.translation := rfl
@[simp] theorem State.setTs_text (s : State) : s.setTs.text = s.text := rfl
@[simp] theorem State.setTs_devices (s : State) : s.setTs.devices = s.devices := rfl
@[simp] theorem State.setTs_control (s : State) : s.setTs.control = s.control := rfl
@[simp] theorem State.setTs_os (s : State) : s.setTs.os = s.os := rfl
@[simp] theorem State.setTs_emulator (s : State) : s.setTs.emulator = s.emulator := rfl
@[simp] theorem State.setTs_platform (s : State) : s.setTs.platform = s.platform := rfl
@[simp] theorem State.setTs_freeCount (s : State) : s.setTs.freeCount = s.freeCount := rfl

@[simp] theorem State.clearTs_fpr (s : State) : s.clearTs.fpr = s.fpr := rfl
@[simp] theorem State.clearTs_ftw (s : State) : s.clearTs.ftw = s.ftw := rfl
@[simp] theorem State.clearTs_top (s : State) : s.clearTs.top = s.top := rfl
@[simp] theorem State.clearTs_gpr (s : State) : s.clearTs.gpr = s.gpr := rfl
@[simp] theorem State.clearTs_pc (s : State) : s.clearTs.pc = s.pc := rfl
@[simp] theorem State.clearTs_eflags (s : State) : s.clearTs.eflags = s.eflags := rfl
@[simp] theorem State.clearTs_cr0 (s : State) : s.clearTs.cr0 = s.cr0 &&& ~~~tsMask := rfl
@[simp] theorem State.clearTs_segs (s : State) : s.clearTs.segs = s.segs := rfl
@[simp] theorem State.clearTs_mode (s : State) : s.clearTs.mode = s.mode := rfl
@[simp] theorem State.clearTs_cpl (s : State) : s.clearTs.cpl = s.cpl := rfl
@[simp] theorem State.clearTs_fpPending (s : State) : s.clearTs.fpPending = s.fpPending := rfl
@[simp] theorem State.clearTs_ferr (s : State) : s.clearTs.ferr = s.ferr := rfl
@[simp] theorem State.clearTs_mem (s : State) : s.clearTs.mem = s.mem := rfl
@[simp] theorem State.clearTs_defaultAddrSize (s : State) : s.clearTs.defaultAddrSize = s.defaultAddrSize := rfl
@[simp] theorem State.clearTs_paging (s : State) : s.clearTs.paging = s.paging := rfl
@[simp] theorem State.clearTs_translation (s : State) : s.clearTs.translation = s.translation := rfl
@[simp] theorem State.clearTs_text (s : State) : s.clearTs.text = s.text := rfl
@[simp] theorem State.clearTs_devices (s : State) : s.clearTs.devices = s.devices := rfl
@[simp] theorem State.clearTs_control (s : State) : s.clearTs.control = s.control := rfl
@[simp] theorem State.clearTs_os (s : State) : s.clearTs.os = s.os := rfl
@[simp] theorem State.clearTs_emulator (s : State) : s.clearTs.emulator = s.emulator := rfl
@[simp] theorem State.clearTs_platform (s : State) : s.clearTs.platform = s.platform := rfl
@[simp] theorem State.clearTs_freeCount (s : State) : s.clearTs.freeCount = s.freeCount := rfl

@[simp] theorem State.clearEm_fpr (s : State) : s.clearEm.fpr = s.fpr := rfl
@[simp] theorem State.clearEm_ftw (s : State) : s.clearEm.ftw = s.ftw := rfl
@[simp] theorem State.clearEm_top (s : State) : s.clearEm.top = s.top := rfl
@[simp] theorem State.clearEm_gpr (s : State) : s.clearEm.gpr = s.gpr := rfl
@[simp] theorem State.clearEm_pc (s : State) : s.clearEm.pc = s.pc := rfl
@[simp] theorem State.clearEm_eflags (s : State) : s.clearEm.eflags = s.eflags := rfl
@[simp] theorem State.clearEm_cr0 (s : State) : s.clearEm.cr0 = s.cr0 &&& ~~~emMask := rfl
@[simp] theorem State.clearEm_segs (s : State) : s.clearEm.segs = s.segs := rfl
@[simp] theorem State.clearEm_mode (s : State) : s.clearEm.mode = s.mode := rfl
@[simp] theorem State.clearEm_cpl (s : State) : s.clearEm.cpl = s.cpl := rfl
@[simp] theorem State.clearEm_fpPending (s : State) : s.clearEm.fpPending = s.fpPending := rfl
@[simp] theorem State.clearEm_ferr (s : State) : s.clearEm.ferr = s.ferr := rfl
@[simp] theorem State.clearEm_mem (s : State) : s.clearEm.mem = s.mem := rfl
@[simp] theorem State.clearEm_defaultAddrSize (s : State) : s.clearEm.defaultAddrSize = s.defaultAddrSize := rfl
@[simp] theorem State.clearEm_paging (s : State) : s.clearEm.paging = s.paging := rfl
@[simp] theorem State.clearEm_translation (s : State) : s.clearEm.translation = s.translation := rfl
@[simp] theorem State.clearEm_text (s : State) : s.clearEm.text = s.text := rfl
@[simp] theorem State.clearEm_devices (s : State) : s.clearEm.devices = s.devices := rfl
@[simp] theorem State.clearEm_control (s : State) : s.clearEm.control = s.control := rfl
@[simp] theorem State.clearEm_os (s : State) : s.clearEm.os = s.os := rfl
@[simp] theorem State.clearEm_emulator (s : State) : s.clearEm.emulator = s.emulator := rfl
@[simp] theorem State.clearEm_platform (s : State) : s.clearEm.platform = s.platform := rfl
@[simp] theorem State.clearEm_freeCount (s : State) : s.clearEm.freeCount = s.freeCount := rfl

@[simp] theorem State.setEm_fpr (s : State) : s.setEm.fpr = s.fpr := rfl
@[simp] theorem State.setEm_ftw (s : State) : s.setEm.ftw = s.ftw := rfl
@[simp] theorem State.setEm_top (s : State) : s.setEm.top = s.top := rfl
@[simp] theorem State.setEm_gpr (s : State) : s.setEm.gpr = s.gpr := rfl
@[simp] theorem State.setEm_pc (s : State) : s.setEm.pc = s.pc := rfl
@[simp] theorem State.setEm_eflags (s : State) : s.setEm.eflags = s.eflags := rfl
@[simp] theorem State.setEm_cr0 (s : State) : s.setEm.cr0 = s.cr0 ||| emMask := rfl
@[simp] theorem State.setEm_segs (s : State) : s.setEm.segs = s.segs := rfl
@[simp] theorem State.setEm_mode (s : State) : s.setEm.mode = s.mode := rfl
@[simp] theorem State.setEm_cpl (s : State) : s.setEm.cpl = s.cpl := rfl
@[simp] theorem State.setEm_fpPending (s : State) : s.setEm.fpPending = s.fpPending := rfl
@[simp] theorem State.setEm_ferr (s : State) : s.setEm.ferr = s.ferr := rfl
@[simp] theorem State.setEm_mem (s : State) : s.setEm.mem = s.mem := rfl
@[simp] theorem State.setEm_defaultAddrSize (s : State) : s.setEm.defaultAddrSize = s.defaultAddrSize := rfl
@[simp] theorem State.setEm_paging (s : State) : s.setEm.paging = s.paging := rfl
@[simp] theorem State.setEm_translation (s : State) : s.setEm.translation = s.translation := rfl
@[simp] theorem State.setEm_text (s : State) : s.setEm.text = s.text := rfl
@[simp] theorem State.setEm_devices (s : State) : s.setEm.devices = s.devices := rfl
@[simp] theorem State.setEm_control (s : State) : s.setEm.control = s.control := rfl
@[simp] theorem State.setEm_os (s : State) : s.setEm.os = s.os := rfl
@[simp] theorem State.setEm_emulator (s : State) : s.setEm.emulator = s.emulator := rfl
@[simp] theorem State.setEm_platform (s : State) : s.setEm.platform = s.platform := rfl
@[simp] theorem State.setEm_freeCount (s : State) : s.setEm.freeCount = s.freeCount := rfl

@[simp] theorem State.writeEm_true (s : State) : s.writeEm true = s.setEm := rfl
@[simp] theorem State.writeEm_false (s : State) : s.writeEm false = s.clearEm := rfl
@[simp] theorem State.writeTs_true (s : State) : s.writeTs true = s.setTs := rfl
@[simp] theorem State.writeTs_false (s : State) : s.writeTs false = s.clearTs := rfl

@[simp] theorem State.setTagsValid_fpr (s : State) : s.setTagsValid.fpr = s.fpr := rfl
@[simp] theorem State.setTagsValid_ftw (s : State) : s.setTagsValid.ftw = 0x0000 := rfl
@[simp] theorem State.setTagsValid_top (s : State) : s.setTagsValid.top = 0 := rfl
@[simp] theorem State.setTagsValid_gpr (s : State) : s.setTagsValid.gpr = s.gpr := rfl
@[simp] theorem State.setTagsValid_pc (s : State) : s.setTagsValid.pc = s.pc := rfl
@[simp] theorem State.setTagsValid_eflags (s : State) : s.setTagsValid.eflags = s.eflags := rfl
@[simp] theorem State.setTagsValid_cr0 (s : State) : s.setTagsValid.cr0 = s.cr0 := rfl
@[simp] theorem State.setTagsValid_segs (s : State) : s.setTagsValid.segs = s.segs := rfl
@[simp] theorem State.setTagsValid_mode (s : State) : s.setTagsValid.mode = s.mode := rfl
@[simp] theorem State.setTagsValid_cpl (s : State) : s.setTagsValid.cpl = s.cpl := rfl
@[simp] theorem State.setTagsValid_fpPending (s : State) : s.setTagsValid.fpPending = s.fpPending := rfl
@[simp] theorem State.setTagsValid_ferr (s : State) : s.setTagsValid.ferr = s.ferr := rfl
@[simp] theorem State.setTagsValid_mem (s : State) : s.setTagsValid.mem = s.mem := rfl
@[simp] theorem State.setTagsValid_defaultAddrSize (s : State) : s.setTagsValid.defaultAddrSize = s.defaultAddrSize := rfl
@[simp] theorem State.setTagsValid_paging (s : State) : s.setTagsValid.paging = s.paging := rfl
@[simp] theorem State.setTagsValid_translation (s : State) : s.setTagsValid.translation = s.translation := rfl
@[simp] theorem State.setTagsValid_text (s : State) : s.setTagsValid.text = s.text := rfl
@[simp] theorem State.setTagsValid_devices (s : State) : s.setTagsValid.devices = s.devices := rfl
@[simp] theorem State.setTagsValid_control (s : State) : s.setTagsValid.control = s.control := rfl
@[simp] theorem State.setTagsValid_os (s : State) : s.setTagsValid.os = s.os := rfl
@[simp] theorem State.setTagsValid_emulator (s : State) : s.setTagsValid.emulator = s.emulator := rfl
@[simp] theorem State.setTagsValid_platform (s : State) : s.setTagsValid.platform = s.platform := rfl
@[simp] theorem State.setTagsValid_freeCount (s : State) : s.setTagsValid.freeCount = s.freeCount := rfl

@[simp] theorem State.setTagsEmpty_fpr (s : State) : s.setTagsEmpty.fpr = s.fpr := rfl
@[simp] theorem State.setTagsEmpty_ftw (s : State) : s.setTagsEmpty.ftw = 0xFFFF := rfl
@[simp] theorem State.setTagsEmpty_top (s : State) : s.setTagsEmpty.top = 0 := rfl
@[simp] theorem State.setTagsEmpty_gpr (s : State) : s.setTagsEmpty.gpr = s.gpr := rfl
@[simp] theorem State.setTagsEmpty_pc (s : State) : s.setTagsEmpty.pc = s.pc := rfl
@[simp] theorem State.setTagsEmpty_eflags (s : State) : s.setTagsEmpty.eflags = s.eflags := rfl
@[simp] theorem State.setTagsEmpty_cr0 (s : State) : s.setTagsEmpty.cr0 = s.cr0 := rfl
@[simp] theorem State.setTagsEmpty_segs (s : State) : s.setTagsEmpty.segs = s.segs := rfl
@[simp] theorem State.setTagsEmpty_mode (s : State) : s.setTagsEmpty.mode = s.mode := rfl
@[simp] theorem State.setTagsEmpty_cpl (s : State) : s.setTagsEmpty.cpl = s.cpl := rfl
@[simp] theorem State.setTagsEmpty_fpPending (s : State) : s.setTagsEmpty.fpPending = s.fpPending := rfl
@[simp] theorem State.setTagsEmpty_ferr (s : State) : s.setTagsEmpty.ferr = s.ferr := rfl
@[simp] theorem State.setTagsEmpty_mem (s : State) : s.setTagsEmpty.mem = s.mem := rfl
@[simp] theorem State.setTagsEmpty_defaultAddrSize (s : State) : s.setTagsEmpty.defaultAddrSize = s.defaultAddrSize := rfl
@[simp] theorem State.setTagsEmpty_paging (s : State) : s.setTagsEmpty.paging = s.paging := rfl
@[simp] theorem State.setTagsEmpty_translation (s : State) : s.setTagsEmpty.translation = s.translation := rfl
@[simp] theorem State.setTagsEmpty_text (s : State) : s.setTagsEmpty.text = s.text := rfl
@[simp] theorem State.setTagsEmpty_devices (s : State) : s.setTagsEmpty.devices = s.devices := rfl
@[simp] theorem State.setTagsEmpty_control (s : State) : s.setTagsEmpty.control = s.control := rfl
@[simp] theorem State.setTagsEmpty_os (s : State) : s.setTagsEmpty.os = s.os := rfl
@[simp] theorem State.setTagsEmpty_emulator (s : State) : s.setTagsEmpty.emulator = s.emulator := rfl
@[simp] theorem State.setTagsEmpty_platform (s : State) : s.setTagsEmpty.platform = s.platform := rfl
@[simp] theorem State.setTagsEmpty_freeCount (s : State) : s.setTagsEmpty.freeCount = s.freeCount := rfl

@[simp] theorem State.advance_fpr (s : State) (n : Nat) : (s.advance n).fpr = s.fpr := rfl
@[simp] theorem State.advance_ftw (s : State) (n : Nat) : (s.advance n).ftw = s.ftw := rfl
@[simp] theorem State.advance_top (s : State) (n : Nat) : (s.advance n).top = s.top := rfl
@[simp] theorem State.advance_gpr (s : State) (n : Nat) : (s.advance n).gpr = s.gpr := rfl
@[simp] theorem State.advance_pc (s : State) (n : Nat) : (s.advance n).pc = s.pc + BitVec.ofNat 32 n := rfl
@[simp] theorem State.advance_eflags (s : State) (n : Nat) : (s.advance n).eflags = s.eflags := rfl
@[simp] theorem State.advance_cr0 (s : State) (n : Nat) : (s.advance n).cr0 = s.cr0 := rfl
@[simp] theorem State.advance_segs (s : State) (n : Nat) : (s.advance n).segs = s.segs := rfl
@[simp] theorem State.advance_mode (s : State) (n : Nat) : (s.advance n).mode = s.mode := rfl
@[simp] theorem State.advance_cpl (s : State) (n : Nat) : (s.advance n).cpl = s.cpl := rfl
@[simp] theorem State.advance_fpPending (s : State) (n : Nat) : (s.advance n).fpPending = s.fpPending := rfl
@[simp] theorem State.advance_ferr (s : State) (n : Nat) : (s.advance n).ferr = s.ferr := rfl
@[simp] theorem State.advance_mem (s : State) (n : Nat) : (s.advance n).mem = s.mem := rfl
@[simp] theorem State.advance_defaultAddrSize (s : State) (n : Nat) : (s.advance n).defaultAddrSize = s.defaultAddrSize := rfl
@[simp] theorem State.advance_paging (s : State) (n : Nat) : (s.advance n).paging = s.paging := rfl
@[simp] theorem State.advance_translation (s : State) (n : Nat) : (s.advance n).translation = s.translation := rfl
@[simp] theorem State.advance_text (s : State) (n : Nat) : (s.advance n).text = s.text := rfl
@[simp] theorem State.advance_devices (s : State) (n : Nat) : (s.advance n).devices = s.devices := rfl
@[simp] theorem State.advance_control (s : State) (n : Nat) : (s.advance n).control = s.control := rfl
@[simp] theorem State.advance_os (s : State) (n : Nat) : (s.advance n).os = s.os := rfl
@[simp] theorem State.advance_emulator (s : State) (n : Nat) : (s.advance n).emulator = s.emulator := rfl
@[simp] theorem State.advance_platform (s : State) (n : Nat) : (s.advance n).platform = s.platform := rfl
@[simp] theorem State.advance_freeCount (s : State) (n : Nat) : (s.advance n).freeCount = s.freeCount := rfl

@[simp] theorem State.raise_fpr (s : State) (v : ExcVector) : (s.raise v).fpr = s.fpr := rfl
@[simp] theorem State.raise_ftw (s : State) (v : ExcVector) : (s.raise v).ftw = s.ftw := rfl
@[simp] theorem State.raise_top (s : State) (v : ExcVector) : (s.raise v).top = s.top := rfl
@[simp] theorem State.raise_gpr (s : State) (v : ExcVector) : (s.raise v).gpr = s.gpr := rfl
@[simp] theorem State.raise_pc (s : State) (v : ExcVector) : (s.raise v).pc = s.pc := rfl
@[simp] theorem State.raise_eflags (s : State) (v : ExcVector) : (s.raise v).eflags = s.eflags := rfl
@[simp] theorem State.raise_cr0 (s : State) (v : ExcVector) : (s.raise v).cr0 = s.cr0 := rfl
@[simp] theorem State.raise_segs (s : State) (v : ExcVector) : (s.raise v).segs = s.segs := rfl
@[simp] theorem State.raise_mode (s : State) (v : ExcVector) : (s.raise v).mode = s.mode := rfl
@[simp] theorem State.raise_cpl (s : State) (v : ExcVector) : (s.raise v).cpl = s.cpl := rfl
@[simp] theorem State.raise_fpPending (s : State) (v : ExcVector) : (s.raise v).fpPending = s.fpPending := rfl
@[simp] theorem State.raise_ferr (s : State) (v : ExcVector) : (s.raise v).ferr = s.ferr := rfl
@[simp] theorem State.raise_mem (s : State) (v : ExcVector) : (s.raise v).mem = s.mem := rfl
@[simp] theorem State.raise_defaultAddrSize (s : State) (v : ExcVector) : (s.raise v).defaultAddrSize = s.defaultAddrSize := rfl
@[simp] theorem State.raise_paging (s : State) (v : ExcVector) : (s.raise v).paging = s.paging := rfl
@[simp] theorem State.raise_translation (s : State) (v : ExcVector) : (s.raise v).translation = s.translation := rfl
@[simp] theorem State.raise_text (s : State) (v : ExcVector) : (s.raise v).text = s.text := rfl
@[simp] theorem State.raise_devices (s : State) (v : ExcVector) : (s.raise v).devices = s.devices := rfl
@[simp] theorem State.raise_control (s : State) (v : ExcVector) : (s.raise v).control = .environment { vector := v, pc := s.pc } := rfl
@[simp] theorem State.raise_os (s : State) (v : ExcVector) : (s.raise v).os = s.os := rfl
@[simp] theorem State.raise_emulator (s : State) (v : ExcVector) : (s.raise v).emulator = s.emulator := rfl
@[simp] theorem State.raise_platform (s : State) (v : ExcVector) : (s.raise v).platform = s.platform := rfl
@[simp] theorem State.raise_freeCount (s : State) (v : ExcVector) : (s.raise v).freeCount = s.freeCount := rfl

@[simp] theorem State.returnFromHandler_fpr (s : State) (e : ExcOutcome) : (s.returnFromHandler e).fpr = s.fpr := rfl
@[simp] theorem State.returnFromHandler_ftw (s : State) (e : ExcOutcome) : (s.returnFromHandler e).ftw = s.ftw := rfl
@[simp] theorem State.returnFromHandler_top (s : State) (e : ExcOutcome) : (s.returnFromHandler e).top = s.top := rfl
@[simp] theorem State.returnFromHandler_gpr (s : State) (e : ExcOutcome) : (s.returnFromHandler e).gpr = s.gpr := rfl
@[simp] theorem State.returnFromHandler_pc (s : State) (e : ExcOutcome) : (s.returnFromHandler e).pc = e.pc := rfl
@[simp] theorem State.returnFromHandler_eflags (s : State) (e : ExcOutcome) : (s.returnFromHandler e).eflags = s.eflags := rfl
@[simp] theorem State.returnFromHandler_cr0 (s : State) (e : ExcOutcome) : (s.returnFromHandler e).cr0 = s.cr0 := rfl
@[simp] theorem State.returnFromHandler_segs (s : State) (e : ExcOutcome) : (s.returnFromHandler e).segs = s.segs := rfl
@[simp] theorem State.returnFromHandler_mode (s : State) (e : ExcOutcome) : (s.returnFromHandler e).mode = s.mode := rfl
@[simp] theorem State.returnFromHandler_cpl (s : State) (e : ExcOutcome) : (s.returnFromHandler e).cpl = s.cpl := rfl
@[simp] theorem State.returnFromHandler_fpPending (s : State) (e : ExcOutcome) : (s.returnFromHandler e).fpPending = s.fpPending := rfl
@[simp] theorem State.returnFromHandler_ferr (s : State) (e : ExcOutcome) : (s.returnFromHandler e).ferr = s.ferr := rfl
@[simp] theorem State.returnFromHandler_mem (s : State) (e : ExcOutcome) : (s.returnFromHandler e).mem = s.mem := rfl
@[simp] theorem State.returnFromHandler_defaultAddrSize (s : State) (e : ExcOutcome) : (s.returnFromHandler e).defaultAddrSize = s.defaultAddrSize := rfl
@[simp] theorem State.returnFromHandler_paging (s : State) (e : ExcOutcome) : (s.returnFromHandler e).paging = s.paging := rfl
@[simp] theorem State.returnFromHandler_translation (s : State) (e : ExcOutcome) : (s.returnFromHandler e).translation = s.translation := rfl
@[simp] theorem State.returnFromHandler_text (s : State) (e : ExcOutcome) : (s.returnFromHandler e).text = s.text := rfl
@[simp] theorem State.returnFromHandler_devices (s : State) (e : ExcOutcome) : (s.returnFromHandler e).devices = s.devices := rfl
@[simp] theorem State.returnFromHandler_control (s : State) (e : ExcOutcome) : (s.returnFromHandler e).control = .running := rfl
@[simp] theorem State.returnFromHandler_os (s : State) (e : ExcOutcome) : (s.returnFromHandler e).os = s.os := rfl
@[simp] theorem State.returnFromHandler_emulator (s : State) (e : ExcOutcome) : (s.returnFromHandler e).emulator = s.emulator := rfl
@[simp] theorem State.returnFromHandler_platform (s : State) (e : ExcOutcome) : (s.returnFromHandler e).platform = s.platform := rfl
@[simp] theorem State.returnFromHandler_freeCount (s : State) (e : ExcOutcome) : (s.returnFromHandler e).freeCount = s.freeCount := rfl

@[simp] theorem State.assertFerr_fpr (s : State) : s.assertFerr.fpr = s.fpr := rfl
@[simp] theorem State.assertFerr_ftw (s : State) : s.assertFerr.ftw = s.ftw := rfl
@[simp] theorem State.assertFerr_top (s : State) : s.assertFerr.top = s.top := rfl
@[simp] theorem State.assertFerr_gpr (s : State) : s.assertFerr.gpr = s.gpr := rfl
@[simp] theorem State.assertFerr_pc (s : State) : s.assertFerr.pc = s.pc := rfl
@[simp] theorem State.assertFerr_eflags (s : State) : s.assertFerr.eflags = s.eflags := rfl
@[simp] theorem State.assertFerr_cr0 (s : State) : s.assertFerr.cr0 = s.cr0 := rfl
@[simp] theorem State.assertFerr_segs (s : State) : s.assertFerr.segs = s.segs := rfl
@[simp] theorem State.assertFerr_mode (s : State) : s.assertFerr.mode = s.mode := rfl
@[simp] theorem State.assertFerr_cpl (s : State) : s.assertFerr.cpl = s.cpl := rfl
@[simp] theorem State.assertFerr_fpPending (s : State) : s.assertFerr.fpPending = s.fpPending := rfl
@[simp] theorem State.assertFerr_ferr (s : State) : s.assertFerr.ferr = true := rfl
@[simp] theorem State.assertFerr_mem (s : State) : s.assertFerr.mem = s.mem := rfl
@[simp] theorem State.assertFerr_defaultAddrSize (s : State) : s.assertFerr.defaultAddrSize = s.defaultAddrSize := rfl
@[simp] theorem State.assertFerr_paging (s : State) : s.assertFerr.paging = s.paging := rfl
@[simp] theorem State.assertFerr_translation (s : State) : s.assertFerr.translation = s.translation := rfl
@[simp] theorem State.assertFerr_text (s : State) : s.assertFerr.text = s.text := rfl
@[simp] theorem State.assertFerr_devices (s : State) : s.assertFerr.devices = s.devices := rfl
@[simp] theorem State.assertFerr_control (s : State) : s.assertFerr.control = s.control := rfl
@[simp] theorem State.assertFerr_os (s : State) : s.assertFerr.os = s.os := rfl
@[simp] theorem State.assertFerr_emulator (s : State) : s.assertFerr.emulator = s.emulator := rfl
@[simp] theorem State.assertFerr_platform (s : State) : s.assertFerr.platform = s.platform := rfl
@[simp] theorem State.assertFerr_freeCount (s : State) : s.assertFerr.freeCount = s.freeCount := rfl

@[simp] theorem State.loadFpImage_fpr (s : State) (img : FpImage) : (s.loadFpImage img).fpr = img.fpr := rfl
@[simp] theorem State.loadFpImage_ftw (s : State) (img : FpImage) : (s.loadFpImage img).ftw = img.ftw := rfl
@[simp] theorem State.loadFpImage_top (s : State) (img : FpImage) : (s.loadFpImage img).top = img.top := rfl
@[simp] theorem State.loadFpImage_gpr (s : State) (img : FpImage) : (s.loadFpImage img).gpr = s.gpr := rfl
@[simp] theorem State.loadFpImage_pc (s : State) (img : FpImage) : (s.loadFpImage img).pc = s.pc := rfl
@[simp] theorem State.loadFpImage_eflags (s : State) (img : FpImage) : (s.loadFpImage img).eflags = s.eflags := rfl
@[simp] theorem State.loadFpImage_cr0 (s : State) (img : FpImage) : (s.loadFpImage img).cr0 = s.cr0 := rfl
@[simp] theorem State.loadFpImage_segs (s : State) (img : FpImage) : (s.loadFpImage img).segs = s.segs := rfl
@[simp] theorem State.loadFpImage_mode (s : State) (img : FpImage) : (s.loadFpImage img).mode = s.mode := rfl
@[simp] theorem State.loadFpImage_cpl (s : State) (img : FpImage) : (s.loadFpImage img).cpl = s.cpl := rfl
@[simp] theorem State.loadFpImage_fpPending (s : State) (img : FpImage) : (s.loadFpImage img).fpPending = img.fpPending := rfl
@[simp] theorem State.loadFpImage_ferr (s : State) (img : FpImage) : (s.loadFpImage img).ferr = s.ferr := rfl
@[simp] theorem State.loadFpImage_mem (s : State) (img : FpImage) : (s.loadFpImage img).mem = s.mem := rfl
@[simp] theorem State.loadFpImage_defaultAddrSize (s : State) (img : FpImage) : (s.loadFpImage img).defaultAddrSize = s.defaultAddrSize := rfl
@[simp] theorem State.loadFpImage_paging (s : State) (img : FpImage) : (s.loadFpImage img).paging = s.paging := rfl
@[simp] theorem State.loadFpImage_translation (s : State) (img : FpImage) : (s.loadFpImage img).translation = s.translation := rfl
@[simp] theorem State.loadFpImage_text (s : State) (img : FpImage) : (s.loadFpImage img).text = s.text := rfl
@[simp] theorem State.loadFpImage_devices (s : State) (img : FpImage) : (s.loadFpImage img).devices = s.devices := rfl
@[simp] theorem State.loadFpImage_control (s : State) (img : FpImage) : (s.loadFpImage img).control = s.control := rfl
@[simp] theorem State.loadFpImage_os (s : State) (img : FpImage) : (s.loadFpImage img).os = s.os := rfl
@[simp] theorem State.loadFpImage_emulator (s : State) (img : FpImage) : (s.loadFpImage img).emulator = s.emulator := rfl
@[simp] theorem State.loadFpImage_platform (s : State) (img : FpImage) : (s.loadFpImage img).platform = s.platform := rfl
@[simp] theorem State.loadFpImage_freeCount (s : State) (img : FpImage) : (s.loadFpImage img).freeCount = s.freeCount := rfl

@[simp] theorem State.taskSwitch_fpr (s : State) (n : Nat) : (s.taskSwitch n).fpr = s.fpr := rfl
@[simp] theorem State.taskSwitch_ftw (s : State) (n : Nat) : (s.taskSwitch n).ftw = s.ftw := rfl
@[simp] theorem State.taskSwitch_top (s : State) (n : Nat) : (s.taskSwitch n).top = s.top := rfl
@[simp] theorem State.taskSwitch_gpr (s : State) (n : Nat) : (s.taskSwitch n).gpr = s.gpr := rfl
@[simp] theorem State.taskSwitch_pc (s : State) (n : Nat) : (s.taskSwitch n).pc = s.pc := rfl
@[simp] theorem State.taskSwitch_eflags (s : State) (n : Nat) : (s.taskSwitch n).eflags = s.eflags := rfl
@[simp] theorem State.taskSwitch_cr0 (s : State) (n : Nat) : (s.taskSwitch n).cr0 = s.cr0 ||| tsMask := rfl
@[simp] theorem State.taskSwitch_segs (s : State) (n : Nat) : (s.taskSwitch n).segs = s.segs := rfl
@[simp] theorem State.taskSwitch_mode (s : State) (n : Nat) : (s.taskSwitch n).mode = s.mode := rfl
@[simp] theorem State.taskSwitch_cpl (s : State) (n : Nat) : (s.taskSwitch n).cpl = s.cpl := rfl
@[simp] theorem State.taskSwitch_fpPending (s : State) (n : Nat) : (s.taskSwitch n).fpPending = s.fpPending := rfl
@[simp] theorem State.taskSwitch_ferr (s : State) (n : Nat) : (s.taskSwitch n).ferr = s.ferr := rfl
@[simp] theorem State.taskSwitch_mem (s : State) (n : Nat) : (s.taskSwitch n).mem = s.mem := rfl
@[simp] theorem State.taskSwitch_defaultAddrSize (s : State) (n : Nat) : (s.taskSwitch n).defaultAddrSize = s.defaultAddrSize := rfl
@[simp] theorem State.taskSwitch_paging (s : State) (n : Nat) : (s.taskSwitch n).paging = s.paging := rfl
@[simp] theorem State.taskSwitch_translation (s : State) (n : Nat) : (s.taskSwitch n).translation = s.translation := rfl
@[simp] theorem State.taskSwitch_text (s : State) (n : Nat) : (s.taskSwitch n).text = s.text := rfl
@[simp] theorem State.taskSwitch_devices (s : State) (n : Nat) : (s.taskSwitch n).devices = s.devices := rfl
@[simp] theorem State.taskSwitch_control (s : State) (n : Nat) : (s.taskSwitch n).control = s.control := rfl
@[simp] theorem State.taskSwitch_os (s : State) (n : Nat) : (s.taskSwitch n).os = s.os.map fun t => { t with current := n } := rfl
@[simp] theorem State.taskSwitch_emulator (s : State) (n : Nat) : (s.taskSwitch n).emulator = s.emulator := rfl
@[simp] theorem State.taskSwitch_platform (s : State) (n : Nat) : (s.taskSwitch n).platform = s.platform := rfl
@[simp] theorem State.taskSwitch_freeCount (s : State) (n : Nat) : (s.taskSwitch n).freeCount = s.freeCount := rfl

@[simp] theorem State.freeArith_fpr (s : State) : s.freeArith.fpr = s.fpr := rfl
@[simp] theorem State.freeArith_ftw (s : State) : s.freeArith.ftw = s.ftw := rfl
@[simp] theorem State.freeArith_top (s : State) : s.freeArith.top = s.top := rfl
@[simp] theorem State.freeArith_gpr (s : State) : s.freeArith.gpr = s.gpr := rfl
@[simp] theorem State.freeArith_pc (s : State) : s.freeArith.pc = s.pc := rfl
@[simp] theorem State.freeArith_eflags (s : State) : s.freeArith.eflags = mergeBits arithMask s.eflags (Config.freeFlags s.freeCount) := rfl
@[simp] theorem State.freeArith_cr0 (s : State) : s.freeArith.cr0 = s.cr0 := rfl
@[simp] theorem State.freeArith_segs (s : State) : s.freeArith.segs = s.segs := rfl
@[simp] theorem State.freeArith_mode (s : State) : s.freeArith.mode = s.mode := rfl
@[simp] theorem State.freeArith_cpl (s : State) : s.freeArith.cpl = s.cpl := rfl
@[simp] theorem State.freeArith_fpPending (s : State) : s.freeArith.fpPending = s.fpPending := rfl
@[simp] theorem State.freeArith_ferr (s : State) : s.freeArith.ferr = s.ferr := rfl
@[simp] theorem State.freeArith_mem (s : State) : s.freeArith.mem = s.mem := rfl
@[simp] theorem State.freeArith_defaultAddrSize (s : State) : s.freeArith.defaultAddrSize = s.defaultAddrSize := rfl
@[simp] theorem State.freeArith_paging (s : State) : s.freeArith.paging = s.paging := rfl
@[simp] theorem State.freeArith_translation (s : State) : s.freeArith.translation = s.translation := rfl
@[simp] theorem State.freeArith_text (s : State) : s.freeArith.text = s.text := rfl
@[simp] theorem State.freeArith_devices (s : State) : s.freeArith.devices = s.devices := rfl
@[simp] theorem State.freeArith_control (s : State) : s.freeArith.control = s.control := rfl
@[simp] theorem State.freeArith_os (s : State) : s.freeArith.os = s.os := rfl
@[simp] theorem State.freeArith_emulator (s : State) : s.freeArith.emulator = s.emulator := rfl
@[simp] theorem State.freeArith_platform (s : State) : s.freeArith.platform = s.platform := rfl
@[simp] theorem State.freeArith_freeCount (s : State) : s.freeArith.freeCount = s.freeCount + 1 := rfl

@[simp] theorem State.setZf_fpr (s : State) (z : Bool) : (s.setZf z).fpr = s.fpr := rfl
@[simp] theorem State.setZf_ftw (s : State) (z : Bool) : (s.setZf z).ftw = s.ftw := rfl
@[simp] theorem State.setZf_top (s : State) (z : Bool) : (s.setZf z).top = s.top := rfl
@[simp] theorem State.setZf_gpr (s : State) (z : Bool) : (s.setZf z).gpr = s.gpr := rfl
@[simp] theorem State.setZf_pc (s : State) (z : Bool) : (s.setZf z).pc = s.pc := rfl
@[simp] theorem State.setZf_eflags (s : State) (z : Bool) : (s.setZf z).eflags = mergeBits zfMask (mergeBits arithMask s.eflags (Config.freeFlags s.freeCount)) (if z then zfMask else 0) := rfl
@[simp] theorem State.setZf_cr0 (s : State) (z : Bool) : (s.setZf z).cr0 = s.cr0 := rfl
@[simp] theorem State.setZf_segs (s : State) (z : Bool) : (s.setZf z).segs = s.segs := rfl
@[simp] theorem State.setZf_mode (s : State) (z : Bool) : (s.setZf z).mode = s.mode := rfl
@[simp] theorem State.setZf_cpl (s : State) (z : Bool) : (s.setZf z).cpl = s.cpl := rfl
@[simp] theorem State.setZf_fpPending (s : State) (z : Bool) : (s.setZf z).fpPending = s.fpPending := rfl
@[simp] theorem State.setZf_ferr (s : State) (z : Bool) : (s.setZf z).ferr = s.ferr := rfl
@[simp] theorem State.setZf_mem (s : State) (z : Bool) : (s.setZf z).mem = s.mem := rfl
@[simp] theorem State.setZf_defaultAddrSize (s : State) (z : Bool) : (s.setZf z).defaultAddrSize = s.defaultAddrSize := rfl
@[simp] theorem State.setZf_paging (s : State) (z : Bool) : (s.setZf z).paging = s.paging := rfl
@[simp] theorem State.setZf_translation (s : State) (z : Bool) : (s.setZf z).translation = s.translation := rfl
@[simp] theorem State.setZf_text (s : State) (z : Bool) : (s.setZf z).text = s.text := rfl
@[simp] theorem State.setZf_devices (s : State) (z : Bool) : (s.setZf z).devices = s.devices := rfl
@[simp] theorem State.setZf_control (s : State) (z : Bool) : (s.setZf z).control = s.control := rfl
@[simp] theorem State.setZf_os (s : State) (z : Bool) : (s.setZf z).os = s.os := rfl
@[simp] theorem State.setZf_emulator (s : State) (z : Bool) : (s.setZf z).emulator = s.emulator := rfl
@[simp] theorem State.setZf_platform (s : State) (z : Bool) : (s.setZf z).platform = s.platform := rfl
@[simp] theorem State.setZf_freeCount (s : State) (z : Bool) : (s.setZf z).freeCount = s.freeCount + 1 := rfl

/-- An MMX register file reads what was written, and elsewhere what it held (R20). -/
@[simp] theorem FpRegs.get_set (f : FpRegs) (r r' : MmReg) (v : BitVec 80) :
    (f.set r v).get r' = if r' = r then v else f.get r' := by
  cases r <;> cases r' <;> rfl

/-- A general register file reads what was written, and elsewhere what it held (R29). -/
@[simp] theorem GprRegs.get_set (g : GprRegs) (r r' : Gpr) (v : DWord) :
    (g.set r v).get r' = if r' = r then v else g.get r' := by
  cases r <;> cases r' <;> rfl

/-- The low part of an append. -/
theorem extractLsb'_append_low {w v : Nat} (a : BitVec w) (b : BitVec v) : (a ++ b).extractLsb' 0 v = b := by
  ext i h
  simp [BitVec.getElem_extractLsb', BitVec.getLsbD_append, h]

/-- A slice of an append above its low part. -/
theorem extractLsb'_append_high {w v : Nat} (a : BitVec w) (b : BitVec v) (start len : Nat) (h : v ≤ start) :
    (a ++ b).extractLsb' start len = a.extractLsb' (start - v) len := by
  ext i hi
  have hge : ¬ start + i < v := by omega
  have hsub : start + i - v = start - v + i := by omega
  simp [BitVec.getElem_extractLsb', BitVec.getLsbD_append, hge, hsub]

/-- The low 64 bits of what a write of an MMX register leaves are the value written (R22). -/
@[simp] theorem mmImage_low (v : QWord) : (mmImage v).extractLsb' 0 64 = v := extractLsb'_append_low _ v

/-- Reading an MMX register after a write of one (R20, R22). -/
theorem State.mm_setMm (s : State) (r r' : MmReg) (v : QWord) :
    (s.setMm r v).mm r' = if r' = r then v else s.mm r' := by
  unfold State.mm
  simp only [State.setMm_fpr, FpRegs.get_set]
  split <;> simp

/-- Reading a general register after a write of one (R29). -/
theorem State.x_setX (s : State) (r r' : Gpr) (v : DWord) :
    (s.setX r v).x r' = if r' = r then v else s.x r' := by
  simp [State.x]

/-- The write of an MMX register, the tags and the advance together are what a completed MMX instruction does (R110). -/
theorem State.wroteMm (s : State) (dst : MmReg) (v : QWord) (n : Nat) :
    WroteMm s (((s.setMm dst v).setTagsValid).advance n) dst v n := by
  refine ⟨?_, fun r hr => ?_, rfl⟩
  · exact (State.mm_setMm s dst dst v).trans (if_pos rfl)
  · show (s.fpr.set dst (mmImage v)).get r = s.fpr.get r
    rw [FpRegs.get_set, if_neg hr]

/-- A raise is the spec's outcome and nothing else. -/
theorem State.raised_eq (s : State) (v : ExcVector) : s.raise v = s.raised v := rfl

end Sys2Proof.Machine
end

