-- ==== Sys2Proof/Laws/Lanes.lean ====
section
/-! SUPPORT. The small lemmas of lanes: reading a lane of a value built from lanes; the saturations and shifts of one lane
in the spec's arithmetic (00_scope.md R10, 47_shift.md R209). -/

namespace Sys2Proof.Machine

open Sys2Proof

/-- Byte i of a value built from bytes. -/
theorem byteLane_ofBytes (f : Nat → BitVec 8) {i : Nat} (h : i < 8) : byteLane (ofBytes f) i = f i := by
  unfold byteLane ofBytes
  interval_cases i <;> (repeat rw [extractLsb'_append_high _ _ _ _ (by omega)]) <;>
    first
    | exact extractLsb'_append_low _ _
    | simp

/-- Word i of a value built from words. -/
theorem wordLane_ofWords (f : Nat → BitVec 16) {i : Nat} (h : i < 4) : wordLane (ofWords f) i = f i := by
  unfold wordLane ofWords
  interval_cases i <;> (repeat rw [extractLsb'_append_high _ _ _ _ (by omega)]) <;>
    first
    | exact extractLsb'_append_low _ _
    | simp

/-- Doubleword i of a value built from doublewords. -/
theorem dwordLane_ofDWords (f : Nat → BitVec 32) {i : Nat} (h : i < 2) : dwordLane (ofDWords f) i = f i := by
  unfold dwordLane ofDWords
  interval_cases i <;> (repeat rw [extractLsb'_append_high _ _ _ _ (by omega)]) <;>
    first
    | exact extractLsb'_append_low _ _
    | simp

/-- `addWrap` is addition modulo 2^N. -/
theorem addWrap_eq {N : Nat} (a b : BitVec N) : addWrap a b = a + b := by
  unfold addWrap
  rw [← Nat.cast_add, BitVec.ofInt_natCast]
  apply BitVec.eq_of_toNat_eq
  simp

/-- `subWrap` is subtraction modulo 2^N. -/
theorem subWrap_eq {N : Nat} (a b : BitVec N) : subWrap a b = a - b := by
  unfold subWrap
  apply BitVec.eq_of_toInt_eq
  rw [BitVec.toInt_sub, BitVec.toInt_ofInt, BitVec.toInt_eq_toNat_bmod, BitVec.toInt_eq_toNat_bmod]
  simp

/-- Shl_N as R209 states it, with no bound on the count. -/
theorem shl_eq {N : Nat} (v : BitVec N) (n : Nat) : shl v n = BitVec.ofNat N (v.toNat * 2 ^ n) := by
  unfold shl
  apply BitVec.eq_of_toNat_eq
  split
  · simp [BitVec.toNat_shiftLeft, Nat.shiftLeft_eq]
  · rename_i h
    have hd : 2 ^ N ∣ v.toNat * 2 ^ n := Dvd.dvd.mul_left (pow_dvd_pow 2 (by omega)) _
    simp [Nat.mod_eq_zero_of_dvd hd]

/-- Shr_N as R209 states it, with no bound on the count. -/
theorem shr_eq {N : Nat} (v : BitVec N) (n : Nat) : shr v n = BitVec.ofNat N (v.toNat / 2 ^ n) := by
  unfold shr
  apply BitVec.eq_of_toNat_eq
  have hle : v.toNat / 2 ^ n < 2 ^ N := lt_of_le_of_lt (Nat.div_le_self _ _) v.isLt
  split
  · simp [Nat.shiftRight_eq_div_pow, Nat.mod_eq_of_lt hle]
  · rename_i h
    have hlt : v.toNat < 2 ^ n := lt_of_lt_of_le v.isLt (Nat.pow_le_pow_right (by omega) (by omega))
    simp [Nat.div_eq_of_lt hlt]

/-- The floor of a signed value of N bits over a power of two does not change past 2^N. -/
theorem floor_div_pow_stable {N n : Nat} (v : BitVec N) (h : N ≤ n) : v.toInt / 2 ^ n = v.toInt / 2 ^ N := by
  have hlo := BitVec.le_two_mul_toInt (x := v)
  have hhi := BitVec.two_mul_toInt_lt (x := v)
  have hpow : (2 ^ N : Int) ≤ 2 ^ n := by exact_mod_cast Nat.pow_le_pow_right (by omega) h
  have hpos : (0 : Int) < 2 ^ N := by positivity
  rcases lt_or_ge v.toInt 0 with hneg | hnn
  · have h1 : v.toInt / 2 ^ n = -1 := by
      rw [Int.ediv_eq_iff_of_pos (by omega)]
      constructor <;> omega
    have h2 : v.toInt / 2 ^ N = -1 := by
      rw [Int.ediv_eq_iff_of_pos hpos]
      constructor <;> omega
    rw [h1, h2]
  · rw [Int.ediv_eq_zero_of_lt hnn (by omega), Int.ediv_eq_zero_of_lt hnn (by omega)]

/-- Sar_N as R209 states it, with no bound on the count. -/
theorem sar_eq {N : Nat} (v : BitVec N) (n : Nat) : sar v n = BitVec.ofInt N (v.toInt / 2 ^ n) := by
  unfold sar
  rcases Nat.le_total n N with h | h
  · rw [Nat.min_eq_left h]
  · rw [Nat.min_eq_right h, floor_div_pow_stable v h]

end Sys2Proof.Machine
end

