-- ==== Sys2Proof/Laws/Memory.lean ====
section
/-! SUPPORT. The laws of memory: a byte reads as it was written, other bytes as they were, and every write keeps the
canonical form; the bytes of a number; the addresses an access answers. -/

namespace Sys2Proof.Machine

open Sys2Proof

/-! ## Single bytes -/

/-- Dropping the entries of an address does not change what other addresses read as. -/
theorem Memory.read_filter (m : Memory) {a x : Nat} (h : x ≠ a) :
    Memory.read (m.filter (fun c => c.1 != a)) x = Memory.read m x := by
  induction m with
  | nil => rfl
  | cons c m ih =>
    by_cases hc : c.1 = a
    · have hx : ¬ c.1 = x := fun e => h (e ▸ hc)
      simp [hc, Memory.read, ih, hc ▸ hx]
    · simp [hc, Memory.read, ih]

/-- Inserting a cell does not change what other addresses read as. -/
theorem Memory.read_insert_other (c : Host.Cell) (m : Memory) {x : Nat} (h : x ≠ c.1) :
    Memory.read (Memory.insert c m) x = Memory.read m x := by
  induction m with
  | nil => simp [Memory.insert, Memory.read, Ne.symm h]
  | cons d m ih =>
    simp only [Memory.insert]
    split
    · simp [Memory.read, Ne.symm h]
    · simp [Memory.read, ih]

/-- An inserted cell reads as it is, where its address was not listed. -/
theorem Memory.read_insert_same (c : Host.Cell) (m : Memory) (h : ∀ d ∈ m, d.1 ≠ c.1) :
    Memory.read (Memory.insert c m) c.1 = c.2 := by
  induction m with
  | nil => simp [Memory.insert, Memory.read]
  | cons d m ih =>
    have hd : d.1 ≠ c.1 := h d (by simp)
    have ih' := ih fun e he => h e (by simp [he])
    simp only [Memory.insert]
    split
    · simp [Memory.read]
    · simp [Memory.read, hd, ih']

/-- An address that is not listed reads as an unlisted one. -/
theorem Memory.read_unlisted (m : Memory) (a : Nat) (h : ∀ d ∈ m, d.1 ≠ a) :
    Memory.read m a = Config.unlistedByte := by
  induction m with
  | nil => rfl
  | cons d m ih =>
    simp [Memory.read, h d (by simp), ih fun e he => h e (by simp [he])]

/-- The address is not listed after its entries are dropped. -/
theorem Memory.filter_unlisted (m : Memory) (a : Nat) : ∀ d ∈ m.filter (fun c => c.1 != a), d.1 ≠ a := by
  intro d hd
  simpa using (List.mem_filter.mp hd).2

/-- A byte reads as it was written. -/
@[simp] theorem Memory.read_write_same (m : Memory) (a : Nat) (v : Byte) : (m.write a v).read a = v := by
  unfold Memory.write
  simp only
  split
  · rename_i h
    rw [Memory.read_unlisted _ _ (Memory.filter_unlisted m a), h]
  · exact Memory.read_insert_same (a, v) _ (Memory.filter_unlisted m a)

/-- Every other byte reads as before. -/
theorem Memory.read_write_other (m : Memory) {a x : Nat} (v : Byte) (h : x ≠ a) :
    (m.write a v).read x = m.read x := by
  unfold Memory.write
  simp only
  split
  · exact Memory.read_filter m h
  · rw [Memory.read_insert_other _ _ h, Memory.read_filter m h]

/-! ## The canonical form -/

/-- Membership in an insertion. -/
theorem Memory.mem_insert (c d : Host.Cell) (m : Memory) : d ∈ Memory.insert c m ↔ d = c ∨ d ∈ m := by
  induction m with
  | nil => simp [Memory.insert]
  | cons e m ih =>
    simp only [Memory.insert]
    split
    · simp
    · simp only [List.mem_cons, ih]
      tauto

/-- Insertion keeps rising addresses, where the address was not listed. -/
theorem Memory.insert_pairwise (c : Host.Cell) (m : Memory) (h : m.Pairwise (fun x y => x.1 < y.1))
    (hc : ∀ d ∈ m, d.1 ≠ c.1) : (Memory.insert c m).Pairwise (fun x y => x.1 < y.1) := by
  induction m with
  | nil => simp [Memory.insert]
  | cons e m ih =>
    rw [List.pairwise_cons] at h
    have he : e.1 ≠ c.1 := hc e (by simp)
    simp only [Memory.insert]
    split
    · rename_i hlt
      refine List.pairwise_cons.mpr ⟨?_, List.pairwise_cons.mpr h⟩
      intro d hd
      rcases List.mem_cons.mp hd with rfl | hm
      · exact hlt
      · exact lt_trans hlt (h.1 d hm)
    · rename_i hge
      refine List.pairwise_cons.mpr ⟨?_, ih h.2 fun d hd => hc d (by simp [hd])⟩
      intro d hd
      rcases (Memory.mem_insert c d m).mp hd with rfl | hm
      · omega
      · exact h.1 d hm

/-- A write keeps the canonical form. -/
theorem Memory.write_wf {m : Memory} (h : m.wf) (a : Nat) (v : Byte) : (m.write a v).wf := by
  have hf : Memory.wf (m.filter (fun c => c.1 != a)) :=
    ⟨h.1.filter _, fun c hc => h.2 c (List.mem_filter.mp hc).1⟩
  unfold Memory.write
  simp only
  split
  · exact hf
  · rename_i hv
    refine ⟨Memory.insert_pairwise (a, v) _ hf.1 (Memory.filter_unlisted m a), fun c hc => ?_⟩
    rcases (Memory.mem_insert (a, v) c _).mp hc with rfl | hm
    · exact hv
    · exact hf.2 c hm

/-- A sequence of writes keeps the canonical form. -/
theorem Memory.writeList_wf {m : Memory} (h : m.wf) (cs : List (Nat × Byte)) : (m.writeList cs).wf := by
  induction cs generalizing m with
  | nil => exact h
  | cons c cs ih => exact ih (Memory.write_wf h c.1 c.2)

/-- A sequence of writes leaves every other address as it was. -/
theorem Memory.read_writeList_other (m : Memory) (cs : List (Nat × Byte)) {x : Nat} (h : ∀ c ∈ cs, c.1 ≠ x) :
    (m.writeList cs).read x = m.read x := by
  induction cs generalizing m with
  | nil => rfl
  | cons c cs ih =>
    rw [Memory.writeList, ih _ fun d hd => h d (by simp [hd]), Memory.read_write_other _ _ (h c (by simp)).symm]

/-- After a sequence of writes to different addresses each one reads as written. -/
theorem Memory.read_writeList_mem (m : Memory) (cs : List (Nat × Byte)) (hnd : (cs.map Prod.fst).Nodup)
    {c : Nat × Byte} (hc : c ∈ cs) : (m.writeList cs).read c.1 = c.2 := by
  induction cs generalizing m with
  | nil => simp at hc
  | cons d cs ih =>
    rw [List.map_cons, List.nodup_cons] at hnd
    rw [Memory.writeList]
    rcases List.mem_cons.mp hc with rfl | hm
    · have : ∀ e ∈ cs, e.1 ≠ c.1 := fun e he hee => hnd.1 (hee ▸ List.mem_map_of_mem he)
      rw [Memory.read_writeList_other _ _ this, Memory.read_write_same]
    · exact ih _ hnd.2 hm

/-! ## The bytes of a number -/

/-- There are n bytes. -/
@[simp] theorem leBytes_length (n v : Nat) : (leBytes n v).length = n := by simp [leBytes]

/-- Byte k is bits 8k+7:8k (R55). -/
theorem leBytes_getElem (n v k : Nat) (h : k < n) :
    (leBytes n v)[k]'(by simpa using h) = BitVec.ofNat 8 (v >>> (8 * k)) := by
  simp [leBytes]

/-- The number of some bytes, shifted down by k bytes, has byte k lowest (R54). -/
theorem leValue_byte (bs : List Byte) (k : Nat) (h : k < bs.length) :
    BitVec.ofNat 8 (leValue bs >>> (8 * k)) = bs[k] := by
  induction bs generalizing k with
  | nil => simp at h
  | cons b bs ih =>
    have hb := b.isLt
    cases k with
    | zero =>
      apply BitVec.eq_of_toNat_eq
      simp [leValue]
      omega
    | succ k =>
      have hs : leValue (b :: bs) >>> (8 * (k + 1)) = leValue bs >>> (8 * k) := by
        simp only [leValue, Nat.shiftRight_eq_div_pow]
        rw [show 8 * (k + 1) = 8 + 8 * k by ring, pow_add, ← Nat.div_div_eq_div_mul]
        congr 1
        omega
      rw [hs, ih k (by simpa using h)]
      simp

/-- The number of n bytes is below 256^n. -/
theorem leValue_lt (bs : List Byte) : leValue bs < 256 ^ bs.length := by
  induction bs with
  | nil => simp [leValue]
  | cons b bs ih =>
    have hb := b.isLt
    simp only [leValue, List.length_cons, pow_succ]
    omega

/-! ## Addresses -/

/-- Paging answers as many addresses as it is asked for. -/
theorem physAddrs_length {s : State} {kind : AccessKind} {ls ps : List Nat} (h : physAddrs s kind ls = some ps) :
    ps.length = ls.length := by
  induction ls generalizing ps with
  | nil =>
    simp only [physAddrs, Option.some.injEq] at h
    simp [← h]
  | cons l ls ih =>
    simp only [physAddrs] at h
    split at h
    · rename_i p qs _ hq
      simp only [Option.some.injEq] at h
      simp [← h, ih hq]
    · simp at h

/-- An answer given for these arguments is one that R57 allows. -/
theorem translateGiven_allowed {s : State} {seg : Seg} {off : DWord} {n : Nat} {kind : AccessKind} {a : TranslateAnswer}
    (h : translateGiven s seg off n kind = some a) : a.allowed s.mode seg n = true := by
  unfold translateGiven at h
  obtain ⟨e, he, rfl⟩ := Option.map_eq_some_iff.mp h
  have := List.find?_some he
  simp only [Bool.and_eq_true] at this
  exact this.2

/-- The answers of the segments and page regions are n addresses. -/
theorem translateByTables_length {s : State} {seg : Seg} {off : DWord} {n : Nat} {kind : AccessKind} {ps : List Nat}
    (h : translateByTables s seg off n kind = .ok ps) : ps.length = n := by
  unfold translateByTables at h
  split at h
  · simp at h
  · split at h
    · rename_i qs hq
      simp only [Except.ok.injEq] at h
      simpa [← h] using physAddrs_length hq
    · simp at h

/-- `Translate` answers n addresses (R57). -/
theorem translate_length {s : State} {seg : Seg} {off : DWord} {n : Nat} {kind : AccessKind} {ps : List Nat}
    (h : translateAddr s seg off n kind = .ok ps) : ps.length = n := by
  unfold translateAddr at h
  split at h
  · simp at h
  · split at h
    · rename_i qs hq
      simp only [Except.ok.injEq] at h
      simpa [TranslateAnswer.allowed, h] using translateGiven_allowed hq
    · simp at h
    · exact translateByTables_length h

/-- All that a passed access check says (R54, R55, R60, R62, R68). -/
theorem accessAddrs_ok {s : State} {seg : Seg} {off : DWord} {n : Nat} {kind : AccessKind} {ps : List Nat}
    (h : accessAddrs s seg off n kind = .ok ps) :
    translateAddr s seg off n kind = .ok ps ∧ ps.length = n ∧
      (s.alignCheckArmed = true → off.toNat % n = 0) ∧
      (∀ a ∈ ps, inRanges s.devices a = false) ∧
      (kind = .write → ∀ a ∈ ps, inRanges s.text a = false) := by
  unfold accessAddrs at h
  split at h
  · simp at h
  · rename_i qs hq
    split at h
    · simp at h
    · rename_i hal
      split at h
      · simp at h
      · rename_i hdev
        split at h
        · simp at h
        · rename_i htxt
          simp only [Except.ok.injEq] at h
          subst h
          refine ⟨hq, translate_length hq, ?_, ?_, ?_⟩
          · intro hc
            simpa [hc] using hal
          · intro a ha
            simp only [List.any_eq_true, not_exists, not_and, Bool.not_eq_true] at hdev
            exact hdev a ha
          · intro hk a ha
            simp only [hk, decide_true, Bool.true_and, List.any_eq_true, not_exists, not_and,
              Bool.not_eq_true] at htxt
            exact htxt a ha

/-- All that a passed read says: the value of the bytes read (R54). -/
theorem memRead_ok {s : State} {seg : Seg} {off : DWord} {n v : Nat} (h : memRead s seg off n = .ok v) :
    ∃ ps, accessAddrs s seg off n .read = .ok ps ∧ v = leValue (s.mem.readList ps) := by
  unfold memRead at h
  split at h
  · simp at h
  · rename_i ps hps
    simp only [Except.ok.injEq] at h
    exact ⟨ps, hps, h.symm⟩

/-- All that a passed write says: the bytes written, every other byte and the canonical form kept (R55, R68). -/
theorem memWrite_ok {s : State} {seg : Seg} {off : DWord} {n v : Nat} {m : Memory}
    (h : memWrite s seg off n v = .ok m) :
    ∃ ps, accessAddrs s seg off n .write = .ok ps ∧ m = s.mem.writeList (ps.zip (leBytes n v)) ∧
      (∀ a, a ∉ ps → m.read a = s.mem.read a) ∧ (s.mem.wf → m.wf) := by
  unfold memWrite at h
  split at h
  · simp at h
  · rename_i ps hps
    simp only [Except.ok.injEq] at h
    refine ⟨ps, hps, h.symm, ?_, ?_⟩
    · intro a ha
      rw [← h]
      apply Memory.read_writeList_other
      intro c hc hca
      exact ha (hca ▸ (List.of_mem_zip hc).1)
    · intro hw
      rw [← h]
      exact Memory.writeList_wf hw _

end Sys2Proof.Machine
end

