-- ==== Sys2Proof/Laws/Ops.lean ====
section
/-! SUPPORT. One lemma for each shared operation that says once everything it can do: the check, the operand access, the
common steps of the instruction forms. -/

namespace Sys2Proof.Machine

open Sys2Proof

/-! ## The check (R228) -/

/-- With the premises of R233 the check passes and changes nothing. -/
theorem mmxCheck_ready {p : Prefixes} {s : State} (h : Ready p s) (k : State → Result) : mmxCheck p s k = k s := by
  obtain ⟨h1, h2, h3, h4⟩ := h
  simp only [List.contains_eq_mem, decide_eq_false_iff_not] at h1
  simp [mmxCheck, h1, h2, h3, h4]

/-- A next state through the check: the instruction ran; or it ran with FERR# asserted, where a pending exception is
ignored; or 6 or 7 was raised; or FERR# was asserted and control left the program (R221, R222, R226). -/
theorem mmxCheck_next {p : Prefixes} {s t : State} {k : State → Result} (h : mmxCheck p s k = .next t) :
    (Ready p s ∧ k s = .next t) ∨
    (s.fpPending = true ∧ s.ne = false ∧ s.platform.ne0Policy = .ignore ∧ k s.assertFerr = .next t) ∨
    (∃ v, t = s.raise v ∧ (v = .invalidOpcode ∨ v = .deviceNotAvailable)) ∨
    (s.fpPending = true ∧ ∃ c, t = { s.assertFerr with control := c } ∧
      (c = .environment ⟨.floatingPoint, s.pc⟩ ∨ (∃ n, c = .environment ⟨.external n, s.pc⟩) ∨ c = .ferrWait)) := by
  unfold mmxCheck at h
  split at h
  · simp only [Host.Outcome.next.injEq] at h
    exact .inr (.inr (.inl ⟨_, h.symm, .inl rfl⟩))
  rename_i hl
  split at h
  · simp only [Host.Outcome.next.injEq] at h
    exact .inr (.inr (.inl ⟨_, h.symm, .inl rfl⟩))
  rename_i he
  split at h
  · simp only [Host.Outcome.next.injEq] at h
    exact .inr (.inr (.inl ⟨_, h.symm, .inr rfl⟩))
  rename_i ht
  split at h
  · rename_i hp
    unfold fpPendingEvent fpReport at h
    simp only at h
    split at h
    · simp only [Host.Outcome.next.injEq] at h
      exact .inr (.inr (.inr ⟨hp, _, h.symm, .inl rfl⟩))
    rename_i hne
    split at h
    · simp only [Host.Outcome.next.injEq] at h
      exact .inr (.inr (.inr ⟨hp, _, h.symm, .inr (.inr rfl)⟩))
    · rename_i n _
      simp only [Host.Outcome.next.injEq] at h
      exact .inr (.inr (.inr ⟨hp, _, h.symm, .inr (.inl ⟨n, rfl⟩)⟩))
    · rename_i hi
      exact .inr (.inl ⟨hp, by simpa using hne, hi, h⟩)
  · rename_i hp
    exact .inl ⟨⟨by simpa using hl, by simpa using he, by simpa using ht, by simpa using hp⟩, h⟩

/-- The check of an x87 instruction with nothing to report (R39, R222, R244). -/
theorem x87Check_ready {α : Type} {s : State} (h1 : s.em = false) (h2 : s.ts = false) (h3 : s.fpPending = false)
    (k : State → α) : x87Check s k = .ok (k s) := by
  simp [x87Check, h1, h2, h3]

/-- An x87 instruction goes on as it is, or with FERR# asserted where a pending exception is ignored (R226, R246). -/
theorem x87Check_ok {α : Type} {s : State} {k : State → α} {v : α} (h : x87Check s k = .ok v) :
    s.em = false ∧ s.ts = false ∧ ((s.fpPending = false ∧ v = k s) ∨
      (s.fpPending = true ∧ s.ne = false ∧ s.platform.ne0Policy = .ignore ∧ v = k s.assertFerr)) := by
  unfold x87Check fpReport at h
  split at h
  · cases h
  rename_i he
  simp only [Bool.or_eq_true, not_or, Bool.not_eq_true] at he
  refine ⟨he.1, he.2, ?_⟩
  split at h
  · rename_i hp
    split at h
    · cases h
    rename_i hn
    split at h <;> cases h
    rename_i hi
    exact .inr ⟨hp, by simpa using hn, hi, rfl⟩
  · rename_i hp
    cases h
    exact .inl ⟨by simpa using hp, rfl⟩

/-- An x87 instruction that does not go on changes only who has control, and FERR# (R232, R246). -/
theorem x87Check_error {α : Type} {s t : State} {k : State → α} (h : x87Check s k = .error t) :
    ∃ c, t = { s with control := c, ferr := t.ferr } ∧ (t.ferr ≠ s.ferr → s.fpPending = true) := by
  unfold x87Check fpReport at h
  split at h
  · cases h
    exact ⟨_, rfl, fun hne => absurd rfl hne⟩
  split at h
  · rename_i hp
    split at h
    · cases h
      exact ⟨_, rfl, fun _ => hp⟩
    · split at h <;> cases h <;> exact ⟨_, rfl, fun _ => hp⟩
  · cases h

/-! ## Operand accesses -/

/-- A next state through an access: the access answered and the instruction went on, or it raised. -/
theorem withAccess_next {α : Type} {s t : State} {a : Except Stop α} {k : α → Result}
    (h : withAccess s a k = .next t) :
    (∃ v, a = .ok v ∧ k v = .next t) ∨ (∃ v, a = .error (.raise v) ∧ t = s.raise v) := by
  unfold withAccess at h
  split at h
  · rename_i v
    exact .inl ⟨v, rfl, h⟩
  · rename_i v
    simp only [Host.Outcome.next.injEq] at h
    exact .inr ⟨v, rfl, h.symm⟩
  · simp at h

/-- The exceptions of a limit: 12 or 13 (R223, R224). -/
theorem limitException_cases (seg : Seg) : limitException seg = .stack ∨ limitException seg = .generalProtection := by
  unfold limitException
  split <;> simp

/-- The exceptions a segment check raises: 12 or 13 (R223, R224). -/
theorem segmentCheck_some {s : State} {seg : Seg} {off : DWord} {n : Nat} {kind : AccessKind} {v : ExcVector}
    (h : segmentCheck s seg off n kind = some v) : v = .stack ∨ v = .generalProtection := by
  unfold segmentCheck at h
  split at h
  · simp at h
  · simp at h
  · split at h
    · split at h
      · simp at h
      · simp only [Option.some.injEq] at h
        exact .inr h.symm
    · simp only [Option.some.injEq] at h
      exact h ▸ limitException_cases seg

/-- The exceptions of `Translate`: 12, 13 or 14 (R57). -/
theorem translateAddr_error {s : State} {seg : Seg} {off : DWord} {n : Nat} {kind : AccessKind} {v : ExcVector}
    (h : translateAddr s seg off n kind = .error v) : v = .stack ∨ v = .generalProtection ∨ v = .pageFault := by
  unfold translateAddr at h
  split at h
  · simp only [Except.error.injEq] at h
    rcases limitException_cases seg with hh | hh <;> simp [← h, hh]
  · split at h
    · simp at h
    · rename_i f _
      simp only [Except.error.injEq] at h
      cases f <;> simp [← h, TranslateFailure.vector]
    · unfold translateByTables at h
      split at h
      · rename_i u hu
        simp only [Except.error.injEq] at h
        rcases segmentCheck_some hu with hh | hh <;> simp [← h, hh]
      · split at h
        · simp at h
        · simp only [Except.error.injEq] at h
          simp [← h]

/-- The exceptions an access raises: 12, 13, 14 or 17 (R229). -/
theorem accessAddrs_raise {s : State} {seg : Seg} {off : DWord} {n : Nat} {kind : AccessKind} {v : ExcVector}
    (h : accessAddrs s seg off n kind = .error (.raise v)) :
    v = .stack ∨ v = .generalProtection ∨ v = .pageFault ∨ v = .alignmentCheck := by
  unfold accessAddrs at h
  split at h
  · rename_i w hw
    simp only [Except.error.injEq, Stop.raise.injEq] at h
    subst h
    rcases translateAddr_error hw with hh | hh | hh <;> simp [hh]
  · split at h
    · simp only [Except.error.injEq, Stop.raise.injEq] at h
      simp [← h]
    · split at h
      · simp at h
      · split at h <;> simp at h

/-- FERR# plays no part in an access. -/
@[simp] theorem accessAddrs_assertFerr (s : State) (seg : Seg) (off : DWord) (n : Nat) (kind : AccessKind) :
    accessAddrs s.assertFerr seg off n kind = accessAddrs s seg off n kind := by
  have hp : ∀ ls, physAddrs s.assertFerr kind ls = physAddrs s kind ls := by
    intro ls
    induction ls with
    | nil => rfl
    | cons l ls ih => simp only [physAddrs, ih]; rfl
  have ht : translateByTables s.assertFerr seg off n kind = translateByTables s seg off n kind := by
    unfold translateByTables
    rw [hp]
    rfl
  unfold accessAddrs translateAddr
  rw [ht]
  rfl

/-- FERR# plays no part in a 64-bit source operand. -/
@[simp] theorem src64_assertFerr (p : Prefixes) (s : State) (src : RM MmReg) :
    src64 p s.assertFerr src = src64 p s src := by
  cases src with
  | reg r => rfl
  | mem m =>
    have h := accessAddrs_assertFerr s (segmentOf p m) (offsetOf s m) 8 .read
    simp only [src64, memRead]
    rw [show offsetOf s.assertFerr m = offsetOf s m from rfl, h]
    rfl

/-! ## The common steps -/

/-- The common step under the premises of R233 with a readable source (R110). -/
theorem packedOp_ready {p : Prefixes} {dst : MmReg} {src : RM MmReg} {f : QWord → QWord → QWord} {s : State} {b : QWord}
    (h : Ready p s) (hb : src64 p s src = .ok b) :
    packedOp p dst src f s =
      .next (((s.setMm dst (f (s.mm dst) b)).setTagsValid).advance (lenRM p src)) := by
  rw [packedOp, mmxCheck_ready h, hb]
  rfl

/-- The common step of the shift-by-immediate forms under the premises of R233 (R190). -/
theorem immOp_ready {p : Prefixes} {dst : MmReg} {imm : Byte} {f : QWord → Nat → QWord} {s : State} (h : Ready p s) :
    immOp p dst imm f s =
      .next (((s.setMm dst (f (s.mm dst) imm.toNat)).setTagsValid).advance (lenImm p)) := by
  rw [immOp, mmxCheck_ready h]

end Sys2Proof.Machine
end

