-- ==== Sys2Proof/Laws/Forms.lean ====
section
/-! SUPPORT. The shape of every meaning, said once: an instruction is the common step of its format, a move, EMMS or
CPUID. -/

namespace Sys2Proof.Machine

open Sys2Proof

/-- Every instruction is one of six shapes: the common step of the forms `mmreg1, mmreg2/mem64`, that of the
shift-by-immediate forms, the two MOVD, the MOVQ store, EMMS, CPUID. -/
theorem exec_shape (i : Instr) :
    (∃ dst src f, i.isMmx = true ∧ i.isEmms = false ∧ i.mmDst = some dst ∧ i.access = RM.memAccess 8 .read src ∧
      ∀ s, exec i s = packedOp i.pfx dst src f s) ∨
    (∃ dst imm f, i.isMmx = true ∧ i.isEmms = false ∧ i.mmDst = some dst ∧ i.access = none ∧
      ∀ s, exec i s = immOp i.pfx dst imm f s) ∨
    (∃ p dst src, i = .movdLoad p dst src) ∨ (∃ p dst src, i = .movdStore p dst src) ∨
    (∃ p dst src, i = .movqStore p dst src) ∨ (∃ p, i = .emms p) ∨ ∃ p, i = .cpuid p := by
  cases i
  case movdLoad => exact .inr (.inr (.inl ⟨_, _, _, rfl⟩))
  case movdStore => exact .inr (.inr (.inr (.inl ⟨_, _, _, rfl⟩)))
  case movqStore => exact .inr (.inr (.inr (.inr (.inl ⟨_, _, _, rfl⟩))))
  case emms => exact .inr (.inr (.inr (.inr (.inr (.inl ⟨_, rfl⟩)))))
  case cpuid => exact .inr (.inr (.inr (.inr (.inr (.inr ⟨_, rfl⟩)))))
  case punpcklbw => exact .inl ⟨_, _, _, rfl, rfl, rfl, rfl, fun s => by show execPunpcklbw _ _ _ s = _; unfold execPunpcklbw; rfl⟩
  case punpcklwd => exact .inl ⟨_, _, _, rfl, rfl, rfl, rfl, fun s => by show execPunpcklwd _ _ _ s = _; unfold execPunpcklwd; rfl⟩
  case punpckldq => exact .inl ⟨_, _, _, rfl, rfl, rfl, rfl, fun s => by show execPunpckldq _ _ _ s = _; unfold execPunpckldq; rfl⟩
  case packsswb => exact .inl ⟨_, _, _, rfl, rfl, rfl, rfl, fun s => by show execPacksswb _ _ _ s = _; unfold execPacksswb; rfl⟩
  case pcmpgtb => exact .inl ⟨_, _, _, rfl, rfl, rfl, rfl, fun s => by show execPcmpgtb _ _ _ s = _; unfold execPcmpgtb; rfl⟩
  case pcmpgtw => exact .inl ⟨_, _, _, rfl, rfl, rfl, rfl, fun s => by show execPcmpgtw _ _ _ s = _; unfold execPcmpgtw; rfl⟩
  case pcmpgtd => exact .inl ⟨_, _, _, rfl, rfl, rfl, rfl, fun s => by show execPcmpgtd _ _ _ s = _; unfold execPcmpgtd; rfl⟩
  case packuswb => exact .inl ⟨_, _, _, rfl, rfl, rfl, rfl, fun s => by show execPackuswb _ _ _ s = _; unfold execPackuswb; rfl⟩
  case punpckhbw => exact .inl ⟨_, _, _, rfl, rfl, rfl, rfl, fun s => by show execPunpckhbw _ _ _ s = _; unfold execPunpckhbw; rfl⟩
  case punpckhwd => exact .inl ⟨_, _, _, rfl, rfl, rfl, rfl, fun s => by show execPunpckhwd _ _ _ s = _; unfold execPunpckhwd; rfl⟩
  case punpckhdq => exact .inl ⟨_, _, _, rfl, rfl, rfl, rfl, fun s => by show execPunpckhdq _ _ _ s = _; unfold execPunpckhdq; rfl⟩
  case packssdw => exact .inl ⟨_, _, _, rfl, rfl, rfl, rfl, fun s => by show execPackssdw _ _ _ s = _; unfold execPackssdw; rfl⟩
  case movqLoad => exact .inl ⟨_, _, _, rfl, rfl, rfl, rfl, fun s => by show execMovqLoad _ _ _ s = _; unfold execMovqLoad; rfl⟩
  case psrlwImm =>
    exact .inr (.inl ⟨_, _, _, rfl, rfl, rfl, rfl, fun s => by show execPsrlwImm _ _ _ s = _; unfold execPsrlwImm; rfl⟩)
  case psrawImm =>
    exact .inr (.inl ⟨_, _, _, rfl, rfl, rfl, rfl, fun s => by show execPsrawImm _ _ _ s = _; unfold execPsrawImm; rfl⟩)
  case psllwImm =>
    exact .inr (.inl ⟨_, _, _, rfl, rfl, rfl, rfl, fun s => by show execPsllwImm _ _ _ s = _; unfold execPsllwImm; rfl⟩)
  case psrldImm =>
    exact .inr (.inl ⟨_, _, _, rfl, rfl, rfl, rfl, fun s => by show execPsrldImm _ _ _ s = _; unfold execPsrldImm; rfl⟩)
  case psradImm =>
    exact .inr (.inl ⟨_, _, _, rfl, rfl, rfl, rfl, fun s => by show execPsradImm _ _ _ s = _; unfold execPsradImm; rfl⟩)
  case pslldImm =>
    exact .inr (.inl ⟨_, _, _, rfl, rfl, rfl, rfl, fun s => by show execPslldImm _ _ _ s = _; unfold execPslldImm; rfl⟩)
  case psrlqImm =>
    exact .inr (.inl ⟨_, _, _, rfl, rfl, rfl, rfl, fun s => by show execPsrlqImm _ _ _ s = _; unfold execPsrlqImm; rfl⟩)
  case psllqImm =>
    exact .inr (.inl ⟨_, _, _, rfl, rfl, rfl, rfl, fun s => by show execPsllqImm _ _ _ s = _; unfold execPsllqImm; rfl⟩)
  case pcmpeqb => exact .inl ⟨_, _, _, rfl, rfl, rfl, rfl, fun s => by show execPcmpeqb _ _ _ s = _; unfold execPcmpeqb; rfl⟩
  case pcmpeqw => exact .inl ⟨_, _, _, rfl, rfl, rfl, rfl, fun s => by show execPcmpeqw _ _ _ s = _; unfold execPcmpeqw; rfl⟩
  case pcmpeqd => exact .inl ⟨_, _, _, rfl, rfl, rfl, rfl, fun s => by show execPcmpeqd _ _ _ s = _; unfold execPcmpeqd; rfl⟩
  case psrlw => exact .inl ⟨_, _, _, rfl, rfl, rfl, rfl, fun s => by show execPsrlw _ _ _ s = _; unfold execPsrlw; rfl⟩
  case psrld => exact .inl ⟨_, _, _, rfl, rfl, rfl, rfl, fun s => by show execPsrld _ _ _ s = _; unfold execPsrld; rfl⟩
  case psrlq => exact .inl ⟨_, _, _, rfl, rfl, rfl, rfl, fun s => by show execPsrlq _ _ _ s = _; unfold execPsrlq; rfl⟩
  case pmullw => exact .inl ⟨_, _, _, rfl, rfl, rfl, rfl, fun s => by show execPmullw _ _ _ s = _; unfold execPmullw; rfl⟩
  case psubusb => exact .inl ⟨_, _, _, rfl, rfl, rfl, rfl, fun s => by show execPsubusb _ _ _ s = _; unfold execPsubusb; rfl⟩
  case psubusw => exact .inl ⟨_, _, _, rfl, rfl, rfl, rfl, fun s => by show execPsubusw _ _ _ s = _; unfold execPsubusw; rfl⟩
  case pand => exact .inl ⟨_, _, _, rfl, rfl, rfl, rfl, fun s => by show execPand _ _ _ s = _; unfold execPand; rfl⟩
  case paddusb => exact .inl ⟨_, _, _, rfl, rfl, rfl, rfl, fun s => by show execPaddusb _ _ _ s = _; unfold execPaddusb; rfl⟩
  case paddusw => exact .inl ⟨_, _, _, rfl, rfl, rfl, rfl, fun s => by show execPaddusw _ _ _ s = _; unfold execPaddusw; rfl⟩
  case pandn => exact .inl ⟨_, _, _, rfl, rfl, rfl, rfl, fun s => by show execPandn _ _ _ s = _; unfold execPandn; rfl⟩
  case psraw => exact .inl ⟨_, _, _, rfl, rfl, rfl, rfl, fun s => by show execPsraw _ _ _ s = _; unfold execPsraw; rfl⟩
  case psrad => exact .inl ⟨_, _, _, rfl, rfl, rfl, rfl, fun s => by show execPsrad _ _ _ s = _; unfold execPsrad; rfl⟩
  case pmulhw => exact .inl ⟨_, _, _, rfl, rfl, rfl, rfl, fun s => by show execPmulhw _ _ _ s = _; unfold execPmulhw; rfl⟩
  case psubsb => exact .inl ⟨_, _, _, rfl, rfl, rfl, rfl, fun s => by show execPsubsb _ _ _ s = _; unfold execPsubsb; rfl⟩
  case psubsw => exact .inl ⟨_, _, _, rfl, rfl, rfl, rfl, fun s => by show execPsubsw _ _ _ s = _; unfold execPsubsw; rfl⟩
  case por => exact .inl ⟨_, _, _, rfl, rfl, rfl, rfl, fun s => by show execPor _ _ _ s = _; unfold execPor; rfl⟩
  case paddsb => exact .inl ⟨_, _, _, rfl, rfl, rfl, rfl, fun s => by show execPaddsb _ _ _ s = _; unfold execPaddsb; rfl⟩
  case paddsw => exact .inl ⟨_, _, _, rfl, rfl, rfl, rfl, fun s => by show execPaddsw _ _ _ s = _; unfold execPaddsw; rfl⟩
  case pxor => exact .inl ⟨_, _, _, rfl, rfl, rfl, rfl, fun s => by show execPxor _ _ _ s = _; unfold execPxor; rfl⟩
  case psllw => exact .inl ⟨_, _, _, rfl, rfl, rfl, rfl, fun s => by show execPsllw _ _ _ s = _; unfold execPsllw; rfl⟩
  case pslld => exact .inl ⟨_, _, _, rfl, rfl, rfl, rfl, fun s => by show execPslld _ _ _ s = _; unfold execPslld; rfl⟩
  case psllq => exact .inl ⟨_, _, _, rfl, rfl, rfl, rfl, fun s => by show execPsllq _ _ _ s = _; unfold execPsllq; rfl⟩
  case pmaddwd => exact .inl ⟨_, _, _, rfl, rfl, rfl, rfl, fun s => by show execPmaddwd _ _ _ s = _; unfold execPmaddwd; rfl⟩
  case psubb => exact .inl ⟨_, _, _, rfl, rfl, rfl, rfl, fun s => by show execPsubb _ _ _ s = _; unfold execPsubb; rfl⟩
  case psubw => exact .inl ⟨_, _, _, rfl, rfl, rfl, rfl, fun s => by show execPsubw _ _ _ s = _; unfold execPsubw; rfl⟩
  case psubd => exact .inl ⟨_, _, _, rfl, rfl, rfl, rfl, fun s => by show execPsubd _ _ _ s = _; unfold execPsubd; rfl⟩
  case paddb => exact .inl ⟨_, _, _, rfl, rfl, rfl, rfl, fun s => by show execPaddb _ _ _ s = _; unfold execPaddb; rfl⟩
  case paddw => exact .inl ⟨_, _, _, rfl, rfl, rfl, rfl, fun s => by show execPaddw _ _ _ s = _; unfold execPaddw; rfl⟩
  case paddd => exact .inl ⟨_, _, _, rfl, rfl, rfl, rfl, fun s => by show execPaddd _ _ _ s = _; unfold execPaddd; rfl⟩

/-- Every MMX instruction makes the check first (R228). -/
theorem exec_mmxCheck (i : Instr) (h : i.isMmx = true) : ∃ k, ∀ s, exec i s = mmxCheck i.pfx s k := by
  cases i <;> first | exact ⟨_, fun _ => rfl⟩ | cases h

end Sys2Proof.Machine
end

