-- ==== Sys2Proof/Laws/PerInstr.lean ====
section
/-! SUPPORT. Statements for all instructions, made per instruction. -/

namespace Sys2Proof.Laws

open Sys2Proof

/-- A memory operand's bytes after ModRM are as many as R99 counts. -/
theorem encMem_length (m : MemOp) : (encMem m).2.2.length = m.bytes := by
  rcases m with m | m
  · cases m with
    | abs d => rfl
    | base r d => cases d <;> rfl
    | sib ss idx b d => cases d <;> rfl
    | sibAbs ss idx d => rfl
  · cases m with
    | abs d => rfl
    | based b d => cases d <;> rfl

/-- The length of an encoding with an `r/m` operand is `ilen` (R99). -/
theorem encHead_rm_length {R : Type} (p : Prefixes) (op : Byte) (bits : R → BitVec 3) (reg : BitVec 3) (x : RM R) :
    (encHead p op (encRM bits reg x)).length = lenRM p x := by
  cases x with
  | reg r => simp [encHead, encRM, lenRM]
  | mem m =>
    simp only [encHead, encRM, lenRM, List.length_append, List.length_map, List.length_cons, encMem_length]
    omega

/-- The length of an encoding with two fixed bytes after the opcode is `ilen` (R99). -/
theorem encHead_imm_length (p : Prefixes) (op a b : Byte) : (encHead p op [a, b]).length = lenImm p := by
  simp [encHead, lenImm]

/-- The length of an encoding without ModRM is `ilen` (R99). -/
theorem encHead_bare_length (p : Prefixes) (op : Byte) : (encHead p op []).length = lenBare p := by
  simp [encHead, lenBare]

/-- The instruction's encoding is `ilen` bytes long (R99). -/
def LengthOfEncoding.Statement (i : Instr) : Prop := (encode i).length = i.len

theorem LengthOfEncoding.punpcklbw (p : Prefixes) (dst : MmReg) (src : RM MmReg) :
    LengthOfEncoding.Statement (.punpcklbw p dst src) := encHead_rm_length p _ _ _ src

theorem LengthOfEncoding.punpcklwd (p : Prefixes) (dst : MmReg) (src : RM MmReg) :
    LengthOfEncoding.Statement (.punpcklwd p dst src) := encHead_rm_length p _ _ _ src

theorem LengthOfEncoding.punpckldq (p : Prefixes) (dst : MmReg) (src : RM MmReg) :
    LengthOfEncoding.Statement (.punpckldq p dst src) := encHead_rm_length p _ _ _ src

theorem LengthOfEncoding.packsswb (p : Prefixes) (dst : MmReg) (src : RM MmReg) :
    LengthOfEncoding.Statement (.packsswb p dst src) := encHead_rm_length p _ _ _ src

theorem LengthOfEncoding.pcmpgtb (p : Prefixes) (dst : MmReg) (src : RM MmReg) :
    LengthOfEncoding.Statement (.pcmpgtb p dst src) := encHead_rm_length p _ _ _ src

theorem LengthOfEncoding.pcmpgtw (p : Prefixes) (dst : MmReg) (src : RM MmReg) :
    LengthOfEncoding.Statement (.pcmpgtw p dst src) := encHead_rm_length p _ _ _ src

theorem LengthOfEncoding.pcmpgtd (p : Prefixes) (dst : MmReg) (src : RM MmReg) :
    LengthOfEncoding.Statement (.pcmpgtd p dst src) := encHead_rm_length p _ _ _ src

theorem LengthOfEncoding.packuswb (p : Prefixes) (dst : MmReg) (src : RM MmReg) :
    LengthOfEncoding.Statement (.packuswb p dst src) := encHead_rm_length p _ _ _ src

theorem LengthOfEncoding.punpckhbw (p : Prefixes) (dst : MmReg) (src : RM MmReg) :
    LengthOfEncoding.Statement (.punpckhbw p dst src) := encHead_rm_length p _ _ _ src

theorem LengthOfEncoding.punpckhwd (p : Prefixes) (dst : MmReg) (src : RM MmReg) :
    LengthOfEncoding.Statement (.punpckhwd p dst src) := encHead_rm_length p _ _ _ src

theorem LengthOfEncoding.punpckhdq (p : Prefixes) (dst : MmReg) (src : RM MmReg) :
    LengthOfEncoding.Statement (.punpckhdq p dst src) := encHead_rm_length p _ _ _ src

theorem LengthOfEncoding.packssdw (p : Prefixes) (dst : MmReg) (src : RM MmReg) :
    LengthOfEncoding.Statement (.packssdw p dst src) := encHead_rm_length p _ _ _ src

theorem LengthOfEncoding.movdLoad (p : Prefixes) (dst : MmReg) (src : RM Gpr) :
    LengthOfEncoding.Statement (.movdLoad p dst src) := encHead_rm_length p _ _ _ src

theorem LengthOfEncoding.movqLoad (p : Prefixes) (dst : MmReg) (src : RM MmReg) :
    LengthOfEncoding.Statement (.movqLoad p dst src) := encHead_rm_length p _ _ _ src

theorem LengthOfEncoding.psrlwImm (p : Prefixes) (dst : MmReg) (imm : Byte) :
    LengthOfEncoding.Statement (.psrlwImm p dst imm) := encHead_imm_length p _ _ _

theorem LengthOfEncoding.psrawImm (p : Prefixes) (dst : MmReg) (imm : Byte) :
    LengthOfEncoding.Statement (.psrawImm p dst imm) := encHead_imm_length p _ _ _

theorem LengthOfEncoding.psllwImm (p : Prefixes) (dst : MmReg) (imm : Byte) :
    LengthOfEncoding.Statement (.psllwImm p dst imm) := encHead_imm_length p _ _ _

theorem LengthOfEncoding.psrldImm (p : Prefixes) (dst : MmReg) (imm : Byte) :
    LengthOfEncoding.Statement (.psrldImm p dst imm) := encHead_imm_length p _ _ _

theorem LengthOfEncoding.psradImm (p : Prefixes) (dst : MmReg) (imm : Byte) :
    LengthOfEncoding.Statement (.psradImm p dst imm) := encHead_imm_length p _ _ _

theorem LengthOfEncoding.pslldImm (p : Prefixes) (dst : MmReg) (imm : Byte) :
    LengthOfEncoding.Statement (.pslldImm p dst imm) := encHead_imm_length p _ _ _

theorem LengthOfEncoding.psrlqImm (p : Prefixes) (dst : MmReg) (imm : Byte) :
    LengthOfEncoding.Statement (.psrlqImm p dst imm) := encHead_imm_length p _ _ _

theorem LengthOfEncoding.psllqImm (p : Prefixes) (dst : MmReg) (imm : Byte) :
    LengthOfEncoding.Statement (.psllqImm p dst imm) := encHead_imm_length p _ _ _

theorem LengthOfEncoding.pcmpeqb (p : Prefixes) (dst : MmReg) (src : RM MmReg) :
    LengthOfEncoding.Statement (.pcmpeqb p dst src) := encHead_rm_length p _ _ _ src

theorem LengthOfEncoding.pcmpeqw (p : Prefixes) (dst : MmReg) (src : RM MmReg) :
    LengthOfEncoding.Statement (.pcmpeqw p dst src) := encHead_rm_length p _ _ _ src

theorem LengthOfEncoding.pcmpeqd (p : Prefixes) (dst : MmReg) (src : RM MmReg) :
    LengthOfEncoding.Statement (.pcmpeqd p dst src) := encHead_rm_length p _ _ _ src

theorem LengthOfEncoding.emms (p : Prefixes) :
    LengthOfEncoding.Statement (.emms p) := encHead_bare_length p _

theorem LengthOfEncoding.movdStore (p : Prefixes) (dst : RM Gpr) (src : MmReg) :
    LengthOfEncoding.Statement (.movdStore p dst src) := encHead_rm_length p _ _ _ dst

theorem LengthOfEncoding.movqStore (p : Prefixes) (dst : RM MmReg) (src : MmReg) :
    LengthOfEncoding.Statement (.movqStore p dst src) := encHead_rm_length p _ _ _ dst

theorem LengthOfEncoding.psrlw (p : Prefixes) (dst : MmReg) (src : RM MmReg) :
    LengthOfEncoding.Statement (.psrlw p dst src) := encHead_rm_length p _ _ _ src

theorem LengthOfEncoding.psrld (p : Prefixes) (dst : MmReg) (src : RM MmReg) :
    LengthOfEncoding.Statement (.psrld p dst src) := encHead_rm_length p _ _ _ src

theorem LengthOfEncoding.psrlq (p : Prefixes) (dst : MmReg) (src : RM MmReg) :
    LengthOfEncoding.Statement (.psrlq p dst src) := encHead_rm_length p _ _ _ src

theorem LengthOfEncoding.pmullw (p : Prefixes) (dst : MmReg) (src : RM MmReg) :
    LengthOfEncoding.Statement (.pmullw p dst src) := encHead_rm_length p _ _ _ src

theorem LengthOfEncoding.psubusb (p : Prefixes) (dst : MmReg) (src : RM MmReg) :
    LengthOfEncoding.Statement (.psubusb p dst src) := encHead_rm_length p _ _ _ src

theorem LengthOfEncoding.psubusw (p : Prefixes) (dst : MmReg) (src : RM MmReg) :
    LengthOfEncoding.Statement (.psubusw p dst src) := encHead_rm_length p _ _ _ src

theorem LengthOfEncoding.pand (p : Prefixes) (dst : MmReg) (src : RM MmReg) :
    LengthOfEncoding.Statement (.pand p dst src) := encHead_rm_length p _ _ _ src

theorem LengthOfEncoding.paddusb (p : Prefixes) (dst : MmReg) (src : RM MmReg) :
    LengthOfEncoding.Statement (.paddusb p dst src) := encHead_rm_length p _ _ _ src

theorem LengthOfEncoding.paddusw (p : Prefixes) (dst : MmReg) (src : RM MmReg) :
    LengthOfEncoding.Statement (.paddusw p dst src) := encHead_rm_length p _ _ _ src

theorem LengthOfEncoding.pandn (p : Prefixes) (dst : MmReg) (src : RM MmReg) :
    LengthOfEncoding.Statement (.pandn p dst src) := encHead_rm_length p _ _ _ src

theorem LengthOfEncoding.psraw (p : Prefixes) (dst : MmReg) (src : RM MmReg) :
    LengthOfEncoding.Statement (.psraw p dst src) := encHead_rm_length p _ _ _ src

theorem LengthOfEncoding.psrad (p : Prefixes) (dst : MmReg) (src : RM MmReg) :
    LengthOfEncoding.Statement (.psrad p dst src) := encHead_rm_length p _ _ _ src

theorem LengthOfEncoding.pmulhw (p : Prefixes) (dst : MmReg) (src : RM MmReg) :
    LengthOfEncoding.Statement (.pmulhw p dst src) := encHead_rm_length p _ _ _ src

theorem LengthOfEncoding.psubsb (p : Prefixes) (dst : MmReg) (src : RM MmReg) :
    LengthOfEncoding.Statement (.psubsb p dst src) := encHead_rm_length p _ _ _ src

theorem LengthOfEncoding.psubsw (p : Prefixes) (dst : MmReg) (src : RM MmReg) :
    LengthOfEncoding.Statement (.psubsw p dst src) := encHead_rm_length p _ _ _ src

theorem LengthOfEncoding.por (p : Prefixes) (dst : MmReg) (src : RM MmReg) :
    LengthOfEncoding.Statement (.por p dst src) := encHead_rm_length p _ _ _ src

theorem LengthOfEncoding.paddsb (p : Prefixes) (dst : MmReg) (src : RM MmReg) :
    LengthOfEncoding.Statement (.paddsb p dst src) := encHead_rm_length p _ _ _ src

theorem LengthOfEncoding.paddsw (p : Prefixes) (dst : MmReg) (src : RM MmReg) :
    LengthOfEncoding.Statement (.paddsw p dst src) := encHead_rm_length p _ _ _ src

theorem LengthOfEncoding.pxor (p : Prefixes) (dst : MmReg) (src : RM MmReg) :
    LengthOfEncoding.Statement (.pxor p dst src) := encHead_rm_length p _ _ _ src

theorem LengthOfEncoding.psllw (p : Prefixes) (dst : MmReg) (src : RM MmReg) :
    LengthOfEncoding.Statement (.psllw p dst src) := encHead_rm_length p _ _ _ src

theorem LengthOfEncoding.pslld (p : Prefixes) (dst : MmReg) (src : RM MmReg) :
    LengthOfEncoding.Statement (.pslld p dst src) := encHead_rm_length p _ _ _ src

theorem LengthOfEncoding.psllq (p : Prefixes) (dst : MmReg) (src : RM MmReg) :
    LengthOfEncoding.Statement (.psllq p dst src) := encHead_rm_length p _ _ _ src

theorem LengthOfEncoding.pmaddwd (p : Prefixes) (dst : MmReg) (src : RM MmReg) :
    LengthOfEncoding.Statement (.pmaddwd p dst src) := encHead_rm_length p _ _ _ src

theorem LengthOfEncoding.psubb (p : Prefixes) (dst : MmReg) (src : RM MmReg) :
    LengthOfEncoding.Statement (.psubb p dst src) := encHead_rm_length p _ _ _ src

theorem LengthOfEncoding.psubw (p : Prefixes) (dst : MmReg) (src : RM MmReg) :
    LengthOfEncoding.Statement (.psubw p dst src) := encHead_rm_length p _ _ _ src

theorem LengthOfEncoding.psubd (p : Prefixes) (dst : MmReg) (src : RM MmReg) :
    LengthOfEncoding.Statement (.psubd p dst src) := encHead_rm_length p _ _ _ src

theorem LengthOfEncoding.paddb (p : Prefixes) (dst : MmReg) (src : RM MmReg) :
    LengthOfEncoding.Statement (.paddb p dst src) := encHead_rm_length p _ _ _ src

theorem LengthOfEncoding.paddw (p : Prefixes) (dst : MmReg) (src : RM MmReg) :
    LengthOfEncoding.Statement (.paddw p dst src) := encHead_rm_length p _ _ _ src

theorem LengthOfEncoding.paddd (p : Prefixes) (dst : MmReg) (src : RM MmReg) :
    LengthOfEncoding.Statement (.paddd p dst src) := encHead_rm_length p _ _ _ src

theorem LengthOfEncoding.cpuid (p : Prefixes) :
    LengthOfEncoding.Statement (.cpuid p) := encHead_bare_length p _

end Sys2Proof.Laws
end

