-- ==== Sys2Proof/Tests/Slice0.lean ====
section
/-! SUPPORT. Tests: ill-formed terms refused, one decoded word for every row of the opcode table, vectors of
95_test_vectors.md, and a witness for the hypotheses of every statement. Each is a named theorem. -/

namespace Sys2Proof.Tests

open Sys2Proof Sys2Proof.Machine

/-! ## A small machine -/

/-- A segment from 0 with all rights. -/
def flatSeg : Segment := ⟨0, 0, 0xFFFFFFFF, true, true⟩

/-- Protected mode, CPL 3, flat segments, 32-bit code at 1000h, eight bytes at 2000h, a device at 9000h, and the three
instructions MOVQ mm0, [esi]; MOVQ [edi], mm1; PADDB mm0, mm1 as program text. -/
def flat : State :=
  { State.reset with
    mode := .prot
    cpl := 3
    defaultAddrSize := .a32
    pc := 0x1000
    segs := ⟨flatSeg, flatSeg, flatSeg, flatSeg, flatSeg, flatSeg⟩
    gpr := ⟨0x87654321, 2, 0, 0x2000, 0x3000, 0x3000, 0x2000, 0x4000⟩
    text := [⟨0x1000, 9⟩]
    devices := [⟨0x9000, 16⟩]
    mem := [(0x1000, 0x0F), (0x1001, 0x6F), (0x1002, 0x06), (0x1003, 0x0F), (0x1004, 0x7F), (0x1005, 0x0F),
      (0x1006, 0x0F), (0x1007, 0xFC), (0x1008, 0xC1), (0x2000, 0xEF), (0x2001, 0xCD), (0x2002, 0xAB), (0x2003, 0x89),
      (0x2004, 0x67), (0x2005, 0x45), (0x2006, 0x23), (0x2007, 0x01)] }

/-- `flat` with MM[3] and MM[5]. -/
def two (a b : QWord) : State := (flat.setMm .mm3 a).setMm .mm5 b

/-- `flat` with other CR0 bits and a general register. -/
def withCr0 (c : DWord) : State := { flat with cr0 := c }

/-- `flat` with the processor in Real mode. -/
def realMode : State := { flat with mode := .real, cpl := 0, defaultAddrSize := .a16, segs := State.reset.segs }

/-- `[esi]`. -/
def atEsi : MemOp := .a32 (.base .esi .none)

/-- `[edi]`. -/
def atEdi : MemOp := .a32 (.base .edi .none)

/-- The next state of an answer. -/
def nextOf : Result → Option State
  | .next t => some t
  | _ => none

/-- An MMX register after a completed instruction. -/
def mmAfter (r : Result) (n : MmReg) : Option QWord :=
  match r with
  | .next t => if t.control = .running then some (t.mm n) else none
  | _ => none

/-- The exception an answer reports. -/
def raisedBy (r : Result) : Option ExcVector :=
  match r with
  | .next t =>
    match t.control with
    | .environment e => some e.vector
    | _ => none
  | _ => none

/-- A refusal. -/
def refusedBy : Result → Option Refusal
  | .refused r => some r
  | _ => none

/-! ## Ill-formed terms, one for each check of WellFormed -/

theorem test_wf_base_esp : (Instr.pand [] .mm0 (.mem (.a32 (.base .esp .none)))).wf .a32 = false := by decide

theorem test_wf_base_ebp_without_disp : (Instr.pand [] .mm0 (.mem (.a32 (.base .ebp .none)))).wf .a32 = false := by
  decide

theorem test_wf_index_esp : (Instr.pand [] .mm0 (.mem (.a32 (.sib 0 (some .esp) .eax .none)))).wf .a32 = false := by
  decide

theorem test_wf_sib_ebp_without_disp : (Instr.pand [] .mm0 (.mem (.a32 (.sib 0 none .ebp .none)))).wf .a32 = false := by
  decide

theorem test_wf_sibAbs_index_esp : (Instr.pand [] .mm0 (.mem (.a32 (.sibAbs 0 (some .esp) 0)))).wf .a32 = false := by
  decide

theorem test_wf_bp_without_disp : (Instr.pand [] .mm0 (.mem (.a16 (.based .bp .none)))).wf .a16 = false := by decide

theorem test_wf_address_size : (Instr.pand [] .mm0 (.mem (.a16 (.based .si .none)))).wf .a32 = false ∧
    (Instr.pand [.addrSize] .mm0 (.mem (.a16 (.based .si .none)))).wf .a32 = true := by decide

theorem test_wf_too_long_register : (Instr.pand (List.replicate 13 .addrSize) .mm0 (.reg .mm1)).wf .a32 = false ∧
    (Instr.pand (List.replicate 12 .addrSize) .mm0 (.reg .mm1)).wf .a32 = true := by decide

theorem test_wf_too_long_memory :
    (Instr.movdStore (List.replicate 9 (.seg .ds)) (.mem (.a32 (.abs 0))) .mm1).wf .a32 = false := by decide

theorem test_wf_too_long_immediate : (Instr.psllqImm (List.replicate 12 .addrSize) .mm0 1).wf .a32 = false := by decide

theorem test_wf_too_long_bare : (Instr.emms (List.replicate 14 .addrSize)).wf .a32 = false := by decide

theorem test_wf_lock_cpuid : (Instr.cpuid [.lock]).wf .a32 = false := by decide

/-! ## Decoding: one word of every row, written from the encoding of R81, R83, R85, R92 and R95 -/

theorem test_decode_punpcklbw :
    decode .a32 [0x0F, 0x60, 0xC5] = .ok (.punpcklbw [] .mm0 (.reg .mm5), []) := by decide

theorem test_decode_punpcklwd :
    decode .a32 [0x0F, 0x61, 0xC8] = .ok (.punpcklwd [] .mm1 (.reg .mm0), []) := by decide

theorem test_decode_punpckldq :
    decode .a32 [0x0F, 0x62, 0x54, 0x8B, 0xF8] = .ok (.punpckldq [] .mm2 (.mem (.a32 (.sib 2 (some .ecx) .ebx (.d8 0xF8)))), []) := by decide

theorem test_decode_packsswb :
    decode .a32 [0x0F, 0x63, 0xDE] = .ok (.packsswb [] .mm3 (.reg .mm6), []) := by decide

theorem test_decode_pcmpgtb :
    decode .a32 [0x0F, 0x64, 0xE1] = .ok (.pcmpgtb [] .mm4 (.reg .mm1), []) := by decide

theorem test_decode_pcmpgtw :
    decode .a32 [0x0F, 0x65, 0x6C, 0x8B, 0xF8] = .ok (.pcmpgtw [] .mm5 (.mem (.a32 (.sib 2 (some .ecx) .ebx (.d8 0xF8)))), []) := by decide

theorem test_decode_pcmpgtd :
    decode .a32 [0x0F, 0x66, 0xF7] = .ok (.pcmpgtd [] .mm6 (.reg .mm7), []) := by decide

theorem test_decode_packuswb :
    decode .a32 [0x0F, 0x67, 0xFA] = .ok (.packuswb [] .mm7 (.reg .mm2), []) := by decide

theorem test_decode_punpckhbw :
    decode .a32 [0x0F, 0x68, 0x44, 0x8B, 0xF8] = .ok (.punpckhbw [] .mm0 (.mem (.a32 (.sib 2 (some .ecx) .ebx (.d8 0xF8)))), []) := by decide

theorem test_decode_punpckhwd :
    decode .a32 [0x0F, 0x69, 0xC8] = .ok (.punpckhwd [] .mm1 (.reg .mm0), []) := by decide

theorem test_decode_punpckhdq :
    decode .a32 [0x0F, 0x6A, 0xD3] = .ok (.punpckhdq [] .mm2 (.reg .mm3), []) := by decide

theorem test_decode_packssdw :
    decode .a32 [0x0F, 0x6B, 0x5C, 0x8B, 0xF8] = .ok (.packssdw [] .mm3 (.mem (.a32 (.sib 2 (some .ecx) .ebx (.d8 0xF8)))), []) := by decide

theorem test_decode_movdLoad :
    decode .a32 [0x0F, 0x6E, 0xD0] = .ok (.movdLoad [] .mm2 (.reg .eax), []) := by decide

theorem test_decode_movqLoad :
    decode .a32 [0x0F, 0x6F, 0xE1] = .ok (.movqLoad [] .mm4 (.reg .mm1), []) := by decide

theorem test_decode_psrlwImm :
    decode .a32 [0x0F, 0x71, 0xD5, 0x2D] = .ok (.psrlwImm [] .mm5 0x2D, []) := by decide

theorem test_decode_psrawImm :
    decode .a32 [0x0F, 0x71, 0xE6, 0x2D] = .ok (.psrawImm [] .mm6 0x2D, []) := by decide

theorem test_decode_psllwImm :
    decode .a32 [0x0F, 0x71, 0xF7, 0x2D] = .ok (.psllwImm [] .mm7 0x2D, []) := by decide

theorem test_decode_psrldImm :
    decode .a32 [0x0F, 0x72, 0xD0, 0x2D] = .ok (.psrldImm [] .mm0 0x2D, []) := by decide

theorem test_decode_psradImm :
    decode .a32 [0x0F, 0x72, 0xE1, 0x2D] = .ok (.psradImm [] .mm1 0x2D, []) := by decide

theorem test_decode_pslldImm :
    decode .a32 [0x0F, 0x72, 0xF2, 0x2D] = .ok (.pslldImm [] .mm2 0x2D, []) := by decide

theorem test_decode_psrlqImm :
    decode .a32 [0x0F, 0x73, 0xD3, 0x2D] = .ok (.psrlqImm [] .mm3 0x2D, []) := by decide

theorem test_decode_psllqImm :
    decode .a32 [0x0F, 0x73, 0xF4, 0x2D] = .ok (.psllqImm [] .mm4 0x2D, []) := by decide

theorem test_decode_pcmpeqb :
    decode .a32 [0x0F, 0x74, 0xEC] = .ok (.pcmpeqb [] .mm5 (.reg .mm4), []) := by decide

theorem test_decode_pcmpeqw :
    decode .a32 [0x0F, 0x75, 0xF7] = .ok (.pcmpeqw [] .mm6 (.reg .mm7), []) := by decide

theorem test_decode_pcmpeqd :
    decode .a32 [0x0F, 0x76, 0x7C, 0x8B, 0xF8] = .ok (.pcmpeqd [] .mm7 (.mem (.a32 (.sib 2 (some .ecx) .ebx (.d8 0xF8)))), []) := by decide

theorem test_decode_emms :
    decode .a32 [0x0F, 0x77] = .ok (.emms [], []) := by decide

theorem test_decode_movdStore :
    decode .a32 [0x0F, 0x7E, 0x07] = .ok (.movdStore [] (.mem (.a32 (.base .edi .none))) .mm0, []) := by decide

theorem test_decode_movqStore :
    decode .a32 [0x0F, 0x7F, 0xE3] = .ok (.movqStore [] (.reg .mm3) .mm4, []) := by decide

theorem test_decode_psrlw :
    decode .a32 [0x0F, 0xD1, 0xC5] = .ok (.psrlw [] .mm0 (.reg .mm5), []) := by decide

theorem test_decode_psrld :
    decode .a32 [0x0F, 0xD2, 0xC8] = .ok (.psrld [] .mm1 (.reg .mm0), []) := by decide

theorem test_decode_psrlq :
    decode .a32 [0x0F, 0xD3, 0x54, 0x8B, 0xF8] = .ok (.psrlq [] .mm2 (.mem (.a32 (.sib 2 (some .ecx) .ebx (.d8 0xF8)))), []) := by decide

theorem test_decode_pmullw :
    decode .a32 [0x0F, 0xD5, 0xDE] = .ok (.pmullw [] .mm3 (.reg .mm6), []) := by decide

theorem test_decode_psubusb :
    decode .a32 [0x0F, 0xD8, 0xE1] = .ok (.psubusb [] .mm4 (.reg .mm1), []) := by decide

theorem test_decode_psubusw :
    decode .a32 [0x0F, 0xD9, 0x6C, 0x8B, 0xF8] = .ok (.psubusw [] .mm5 (.mem (.a32 (.sib 2 (some .ecx) .ebx (.d8 0xF8)))), []) := by decide

theorem test_decode_pand :
    decode .a32 [0x0F, 0xDB, 0xF7] = .ok (.pand [] .mm6 (.reg .mm7), []) := by decide

theorem test_decode_paddusb :
    decode .a32 [0x0F, 0xDC, 0xFA] = .ok (.paddusb [] .mm7 (.reg .mm2), []) := by decide

theorem test_decode_paddusw :
    decode .a32 [0x0F, 0xDD, 0x44, 0x8B, 0xF8] = .ok (.paddusw [] .mm0 (.mem (.a32 (.sib 2 (some .ecx) .ebx (.d8 0xF8)))), []) := by decide

theorem test_decode_pandn :
    decode .a32 [0x0F, 0xDF, 0xC8] = .ok (.pandn [] .mm1 (.reg .mm0), []) := by decide

theorem test_decode_psraw :
    decode .a32 [0x0F, 0xE1, 0xD3] = .ok (.psraw [] .mm2 (.reg .mm3), []) := by decide

theorem test_decode_psrad :
    decode .a32 [0x0F, 0xE2, 0x5C, 0x8B, 0xF8] = .ok (.psrad [] .mm3 (.mem (.a32 (.sib 2 (some .ecx) .ebx (.d8 0xF8)))), []) := by decide

theorem test_decode_pmulhw :
    decode .a32 [0x0F, 0xE5, 0xE1] = .ok (.pmulhw [] .mm4 (.reg .mm1), []) := by decide

theorem test_decode_psubsb :
    decode .a32 [0x0F, 0xE8, 0xEC] = .ok (.psubsb [] .mm5 (.reg .mm4), []) := by decide

theorem test_decode_psubsw :
    decode .a32 [0x0F, 0xE9, 0x74, 0x8B, 0xF8] = .ok (.psubsw [] .mm6 (.mem (.a32 (.sib 2 (some .ecx) .ebx (.d8 0xF8)))), []) := by decide

theorem test_decode_por :
    decode .a32 [0x0F, 0xEB, 0xFA] = .ok (.por [] .mm7 (.reg .mm2), []) := by decide

theorem test_decode_paddsb :
    decode .a32 [0x0F, 0xEC, 0xC5] = .ok (.paddsb [] .mm0 (.reg .mm5), []) := by decide

theorem test_decode_paddsw :
    decode .a32 [0x0F, 0xED, 0x4C, 0x8B, 0xF8] = .ok (.paddsw [] .mm1 (.mem (.a32 (.sib 2 (some .ecx) .ebx (.d8 0xF8)))), []) := by decide

theorem test_decode_pxor :
    decode .a32 [0x0F, 0xEF, 0xD3] = .ok (.pxor [] .mm2 (.reg .mm3), []) := by decide

theorem test_decode_psllw :
    decode .a32 [0x0F, 0xF1, 0xDE] = .ok (.psllw [] .mm3 (.reg .mm6), []) := by decide

theorem test_decode_pslld :
    decode .a32 [0x0F, 0xF2, 0x64, 0x8B, 0xF8] = .ok (.pslld [] .mm4 (.mem (.a32 (.sib 2 (some .ecx) .ebx (.d8 0xF8)))), []) := by decide

theorem test_decode_psllq :
    decode .a32 [0x0F, 0xF3, 0xEC] = .ok (.psllq [] .mm5 (.reg .mm4), []) := by decide

theorem test_decode_pmaddwd :
    decode .a32 [0x0F, 0xF5, 0xF7] = .ok (.pmaddwd [] .mm6 (.reg .mm7), []) := by decide

theorem test_decode_psubb :
    decode .a32 [0x0F, 0xF8, 0x7C, 0x8B, 0xF8] = .ok (.psubb [] .mm7 (.mem (.a32 (.sib 2 (some .ecx) .ebx (.d8 0xF8)))), []) := by decide

theorem test_decode_psubw :
    decode .a32 [0x0F, 0xF9, 0xC5] = .ok (.psubw [] .mm0 (.reg .mm5), []) := by decide

theorem test_decode_psubd :
    decode .a32 [0x0F, 0xFA, 0xC8] = .ok (.psubd [] .mm1 (.reg .mm0), []) := by decide

theorem test_decode_paddb :
    decode .a32 [0x0F, 0xFC, 0x54, 0x8B, 0xF8] = .ok (.paddb [] .mm2 (.mem (.a32 (.sib 2 (some .ecx) .ebx (.d8 0xF8)))), []) := by decide

theorem test_decode_paddw :
    decode .a32 [0x0F, 0xFD, 0xDE] = .ok (.paddw [] .mm3 (.reg .mm6), []) := by decide

theorem test_decode_paddd :
    decode .a32 [0x0F, 0xFE, 0xE1] = .ok (.paddd [] .mm4 (.reg .mm1), []) := by decide

theorem test_decode_cpuid :
    decode .a32 [0x0F, 0xA2] = .ok (.cpuid [], []) := by decide

/-! ## Results: vectors of 95_test_vectors.md Part 2 -/

theorem test_punpcklbw :
    mmAfter (exec (.punpcklbw [] .mm3 (.reg .mm5)) (two 0x8877665544332211 0x8877665544332211)) .mm3 =
      some 0x4444333322221111 := by decide

theorem test_punpcklwd :
    mmAfter (exec (.punpcklwd [] .mm3 (.reg .mm5)) (two 0x8877665544332211 0xFFEEDDCCBBAA9988)) .mm3 =
      some 0xBBAA443399882211 := by decide

theorem test_punpckldq :
    mmAfter (exec (.punpckldq [] .mm3 (.reg .mm5)) (two 0x8877665544332211 0x8877665544332211)) .mm3 =
      some 0x4433221144332211 := by decide

theorem test_packsswb :
    mmAfter (exec (.packsswb [] .mm3 (.reg .mm5)) (two 0x007F0080FF80FF7F 0x7FFF800000FF0100)) .mm3 =
      some 0x7F807F7F7F7F8080 := by decide

theorem test_pcmpgtb :
    mmAfter (exec (.pcmpgtb [] .mm3 (.reg .mm5)) (two 0x800000007FFFFFFF 0x7FFFFFFF80000000)) .mm3 =
      some 0x00FFFFFFFF000000 := by decide

theorem test_pcmpgtw :
    mmAfter (exec (.pcmpgtw [] .mm3 (.reg .mm5)) (two 0x800000007FFFFFFF 0x7FFFFFFF80000000)) .mm3 =
      some 0x0000FFFFFFFF0000 := by decide

theorem test_pcmpgtd :
    mmAfter (exec (.pcmpgtd [] .mm3 (.reg .mm5)) (two 0x800000007FFFFFFF 0x7FFFFFFF80000000)) .mm3 =
      some 0x00000000FFFFFFFF := by decide

theorem test_packuswb :
    mmAfter (exec (.packuswb [] .mm3 (.reg .mm5)) (two 0x007F0080FF80FF7F 0x7FFF800000FF0100)) .mm3 =
      some 0xFF00FFFF7F800000 := by decide

theorem test_punpckhbw :
    mmAfter (exec (.punpckhbw [] .mm3 (.reg .mm5)) (two 0x8877665544332211 0x8877665544332211)) .mm3 =
      some 0x8888777766665555 := by decide

theorem test_punpckhwd :
    mmAfter (exec (.punpckhwd [] .mm3 (.reg .mm5)) (two 0x8877665544332211 0xFFEEDDCCBBAA9988)) .mm3 =
      some 0xFFEE8877DDCC6655 := by decide

theorem test_punpckhdq :
    mmAfter (exec (.punpckhdq [] .mm3 (.reg .mm5)) (two 0x8877665544332211 0x8877665544332211)) .mm3 =
      some 0x8877665588776655 := by decide

theorem test_packssdw :
    mmAfter (exec (.packssdw [] .mm3 (.reg .mm5)) (two 0x7FFFFFFF80000000 0x00008000FFFF7FFF)) .mm3 =
      some 0x7FFF80007FFF8000 := by decide

theorem test_psrlwImm :
    mmAfter (exec (.psrlwImm [] .mm3 0x08) (two 0x8800EC220FF9FF00 0)) .mm3 =
      some 0x008800EC000F00FF := by decide

theorem test_psrlwImm_2 :
    mmAfter (exec (.psrlwImm [] .mm3 0xFF) (two 0x8001FFFF7FFF0001 0)) .mm3 =
      some 0x0000000000000000 := by decide

theorem test_psrawImm :
    mmAfter (exec (.psrawImm [] .mm3 0x1) (two 0x8001FFFF7FFF0001 0)) .mm3 =
      some 0xC000FFFF3FFF0000 := by decide

theorem test_psrawImm_2 :
    mmAfter (exec (.psrawImm [] .mm3 0xFF) (two 0x8001FFFF7FFF0001 0)) .mm3 =
      some 0xFFFFFFFF00000000 := by decide

theorem test_psllwImm :
    mmAfter (exec (.psllwImm [] .mm3 0x1) (two 0x8001FFFF7FFF0001 0)) .mm3 =
      some 0x0002FFFEFFFE0002 := by decide

theorem test_psllwImm_2 :
    mmAfter (exec (.psllwImm [] .mm3 0xFF) (two 0x8001FFFF7FFF0001 0)) .mm3 =
      some 0x0000000000000000 := by decide

theorem test_psrldImm :
    mmAfter (exec (.psrldImm [] .mm3 0x1) (two 0x800000017FFFFFFF 0)) .mm3 =
      some 0x400000003FFFFFFF := by decide

theorem test_psrldImm_2 :
    mmAfter (exec (.psrldImm [] .mm3 0x21) (two 0x800000017FFFFFFF 0)) .mm3 =
      some 0x0000000000000000 := by decide

theorem test_psradImm :
    mmAfter (exec (.psradImm [] .mm3 0x1F) (two 0x800000017FFFFFFF 0)) .mm3 =
      some 0xFFFFFFFF00000000 := by decide

theorem test_psradImm_2 :
    mmAfter (exec (.psradImm [] .mm3 0x21) (two 0x800000017FFFFFFF 0)) .mm3 =
      some 0xFFFFFFFF00000000 := by decide

theorem test_pslldImm :
    mmAfter (exec (.pslldImm [] .mm3 0x1) (two 0x800000017FFFFFFF 0)) .mm3 =
      some 0x00000002FFFFFFFE := by decide

theorem test_pslldImm_2 :
    mmAfter (exec (.pslldImm [] .mm3 0x21) (two 0x800000017FFFFFFF 0)) .mm3 =
      some 0x0000000000000000 := by decide

theorem test_psrlqImm :
    mmAfter (exec (.psrlqImm [] .mm3 0x1) (two 0x8000000000000001 0)) .mm3 =
      some 0x4000000000000000 := by decide

theorem test_psrlqImm_2 :
    mmAfter (exec (.psrlqImm [] .mm3 0x41) (two 0x8000000000000001 0)) .mm3 =
      some 0x0000000000000000 := by decide

theorem test_psllqImm :
    mmAfter (exec (.psllqImm [] .mm3 0x1) (two 0x8000000000000001 0)) .mm3 =
      some 0x0000000000000002 := by decide

theorem test_psllqImm_2 :
    mmAfter (exec (.psllqImm [] .mm3 0x41) (two 0x8000000000000001 0)) .mm3 =
      some 0x0000000000000000 := by decide

theorem test_pcmpeqb :
    mmAfter (exec (.pcmpeqb [] .mm3 (.reg .mm5)) (two 0x0000000000001234 0x0000000000001234)) .mm3 =
      some 0xFFFFFFFFFFFFFFFF := by decide

theorem test_pcmpeqw :
    mmAfter (exec (.pcmpeqw [] .mm3 (.reg .mm5)) (two 0x7F80FF0001FE8000 0x807FFF00FE018001)) .mm3 =
      some 0x0000FFFF00000000 := by decide

theorem test_pcmpeqd :
    mmAfter (exec (.pcmpeqd [] .mm3 (.reg .mm5)) (two 0x800000007FFFFFFF 0x7FFFFFFF80000000)) .mm3 =
      some 0x0000000000000000 := by decide

theorem test_psrlw :
    mmAfter (exec (.psrlw [] .mm3 (.reg .mm5)) (two 0x8001FFFF7FFF0001 0x1)) .mm3 =
      some 0x40007FFF3FFF0000 := by decide

theorem test_psrlw_2 :
    mmAfter (exec (.psrlw [] .mm3 (.reg .mm5)) (two 0x8001FFFF7FFF0001 0x0000000100000000)) .mm3 =
      some 0x0000000000000000 := by decide

theorem test_psrld :
    mmAfter (exec (.psrld [] .mm3 (.reg .mm5)) (two 0x800000017FFFFFFF 0x1)) .mm3 =
      some 0x400000003FFFFFFF := by decide

theorem test_psrld_2 :
    mmAfter (exec (.psrld [] .mm3 (.reg .mm5)) (two 0x800000017FFFFFFF 0x8000000000000000)) .mm3 =
      some 0x0000000000000000 := by decide

theorem test_psrlq :
    mmAfter (exec (.psrlq [] .mm3 (.reg .mm5)) (two 0x8000000000000001 0x1)) .mm3 =
      some 0x4000000000000000 := by decide

theorem test_psrlq_2 :
    mmAfter (exec (.psrlq [] .mm3 (.reg .mm5)) (two 0x8000000000000001 0x100)) .mm3 =
      some 0x0000000000000000 := by decide

theorem test_pmullw :
    mmAfter (exec (.pmullw [] .mm3 (.reg .mm5)) (two 0x80008000FFFF7FFF 0x800080007FFF7FFF)) .mm3 =
      some 0x0000000080010001 := by decide

theorem test_psubusb :
    mmAfter (exec (.psubusb [] .mm3 (.reg .mm5)) (two 0x0001807F10FF0080 0x01027F8020010180)) .mm3 =
      some 0x0000010000FE0000 := by decide

theorem test_psubusw :
    mmAfter (exec (.psubusw [] .mm3 (.reg .mm5)) (two 0x000180007FFF0000 0x00027FFF80000001)) .mm3 =
      some 0x0000000100000000 := by decide

theorem test_pand :
    mmAfter (exec (.pand [] .mm3 (.reg .mm5)) (two 0xFF00FF00F0F0AAAA 0xFF00FF00F0F0AAAA)) .mm3 =
      some 0xFF00FF00F0F0AAAA := by decide

theorem test_paddusb :
    mmAfter (exec (.paddusb [] .mm3 (.reg .mm5)) (two 0x0001807F10FF0080 0x01027F8020010180)) .mm3 =
      some 0x0103FFFF30FF01FF := by decide

theorem test_paddusw :
    mmAfter (exec (.paddusw [] .mm3 (.reg .mm5)) (two 0x7FFF8000FFFF0001 0x00018000000100FF)) .mm3 =
      some 0x8000FFFFFFFF0100 := by decide

theorem test_pandn :
    mmAfter (exec (.pandn [] .mm3 (.reg .mm5)) (two 0xFF00FF00F0F0AAAA 0xFF00FF00F0F0AAAA)) .mm3 =
      some 0x0000000000000000 := by decide

theorem test_psraw :
    mmAfter (exec (.psraw [] .mm3 (.reg .mm5)) (two 0x8001FFFF7FFF0001 0x1)) .mm3 =
      some 0xC000FFFF3FFF0000 := by decide

theorem test_psraw_2 :
    mmAfter (exec (.psraw [] .mm3 (.reg .mm5)) (two 0x8001FFFF7FFF0001 0x0000000100000000)) .mm3 =
      some 0xFFFFFFFF00000000 := by decide

theorem test_psrad :
    mmAfter (exec (.psrad [] .mm3 (.reg .mm5)) (two 0x800000017FFFFFFF 0x1)) .mm3 =
      some 0xC00000003FFFFFFF := by decide

theorem test_psrad_2 :
    mmAfter (exec (.psrad [] .mm3 (.reg .mm5)) (two 0x800000017FFFFFFF 0x8000000000000000)) .mm3 =
      some 0xFFFFFFFF00000000 := by decide

theorem test_pmulhw :
    mmAfter (exec (.pmulhw [] .mm3 (.reg .mm5)) (two 0x80008000FFFF7FFF 0x800080007FFF7FFF)) .mm3 =
      some 0x40004000FFFF3FFF := by decide

theorem test_psubsb :
    mmAfter (exec (.psubsb [] .mm3 (.reg .mm5)) (two 0x0001807F10FF0080 0x01027F8020010180)) .mm3 =
      some 0xFFFF807FF0FEFF00 := by decide

theorem test_psubsw :
    mmAfter (exec (.psubsw [] .mm3 (.reg .mm5)) (two 0x000180007FFF0000 0x00027FFF80000001)) .mm3 =
      some 0xFFFF80007FFFFFFF := by decide

theorem test_por :
    mmAfter (exec (.por [] .mm3 (.reg .mm5)) (two 0xFF00FF00F0F0AAAA 0xFF00FF00F0F0AAAA)) .mm3 =
      some 0xFF00FF00F0F0AAAA := by decide

theorem test_paddsb :
    mmAfter (exec (.paddsb [] .mm3 (.reg .mm5)) (two 0x0001807F10FF0080 0x01027F8020010180)) .mm3 =
      some 0x0103FFFF30000180 := by decide

theorem test_paddsw :
    mmAfter (exec (.paddsw [] .mm3 (.reg .mm5)) (two 0x7FFF8000FFFF0001 0x00018000000100FF)) .mm3 =
      some 0x7FFF800000000100 := by decide

theorem test_pxor :
    mmAfter (exec (.pxor [] .mm3 (.reg .mm5)) (two 0xFF00FF00F0F0AAAA 0xFF00FF00F0F0AAAA)) .mm3 =
      some 0x0000000000000000 := by decide

theorem test_psllw :
    mmAfter (exec (.psllw [] .mm3 (.reg .mm5)) (two 0x8001FFFF7FFF0001 0x1)) .mm3 =
      some 0x0002FFFEFFFE0002 := by decide

theorem test_psllw_2 :
    mmAfter (exec (.psllw [] .mm3 (.reg .mm5)) (two 0x8001FFFF7FFF0001 0x0000000100000000)) .mm3 =
      some 0x0000000000000000 := by decide

theorem test_pslld :
    mmAfter (exec (.pslld [] .mm3 (.reg .mm5)) (two 0x800000017FFFFFFF 0x1)) .mm3 =
      some 0x00000002FFFFFFFE := by decide

theorem test_pslld_2 :
    mmAfter (exec (.pslld [] .mm3 (.reg .mm5)) (two 0x800000017FFFFFFF 0x8000000000000000)) .mm3 =
      some 0x0000000000000000 := by decide

theorem test_psllq :
    mmAfter (exec (.psllq [] .mm3 (.reg .mm5)) (two 0x8000000000000001 0x1)) .mm3 =
      some 0x0000000000000002 := by decide

theorem test_psllq_2 :
    mmAfter (exec (.psllq [] .mm3 (.reg .mm5)) (two 0x8000000000000001 0x100)) .mm3 =
      some 0x0000000000000000 := by decide

theorem test_pmaddwd :
    mmAfter (exec (.pmaddwd [] .mm3 (.reg .mm5)) (two 0x80008000FFFF7FFF 0x800080007FFF7FFF)) .mm3 =
      some 0x800000003FFE8002 := by decide

theorem test_pmaddwd_2 :
    mmAfter (exec (.pmaddwd [] .mm3 (.reg .mm5)) (two 0x0001000200030004 0x0005000600070008)) .mm3 =
      some 0x0000001100000035 := by decide

theorem test_psubb :
    mmAfter (exec (.psubb [] .mm3 (.reg .mm5)) (two 0x0001807F10FF0080 0x01027F8020010180)) .mm3 =
      some 0xFFFF01FFF0FEFF00 := by decide

theorem test_psubw :
    mmAfter (exec (.psubw [] .mm3 (.reg .mm5)) (two 0x000180007FFF0000 0x00027FFF80000001)) .mm3 =
      some 0xFFFF0001FFFFFFFF := by decide

theorem test_psubd :
    mmAfter (exec (.psubd [] .mm3 (.reg .mm5)) (two 0x7FFFFFFF80000000 0x0000000180000000)) .mm3 =
      some 0x7FFFFFFE00000000 := by decide

theorem test_psubd_2 :
    mmAfter (exec (.psubd [] .mm3 (.reg .mm5)) (two 0x0000000100000000 0x0000000000000001)) .mm3 =
      some 0x00000001FFFFFFFF := by decide

theorem test_paddb :
    mmAfter (exec (.paddb [] .mm3 (.reg .mm5)) (two 0x0001807F10FF0080 0x01027F8020010180)) .mm3 =
      some 0x0103FFFF30000100 := by decide

theorem test_paddw :
    mmAfter (exec (.paddw [] .mm3 (.reg .mm5)) (two 0x7FFF8000FFFF0001 0x00018000000100FF)) .mm3 =
      some 0x8000000000000100 := by decide

theorem test_paddd :
    mmAfter (exec (.paddd [] .mm3 (.reg .mm5)) (two 0x7FFFFFFF80000000 0x0000000180000000)) .mm3 =
      some 0x8000000000000000 := by decide

/-- MOVD zero-extends. -/
theorem test_movdLoad :
    mmAfter (exec (.movdLoad [] .mm2 (.reg .eax)) (flat.setMm .mm2 0xFFFFFFFFFFFFFFFF)) .mm2 = some 0x87654321 := by
  decide

theorem test_movdLoad_2 : mmAfter (exec (.movdLoad [] .mm0 (.mem atEsi)) flat) .mm0 = some 0x89ABCDEF := by decide

theorem test_movdStore : (nextOf (exec (.movdStore [] (.reg .ecx) .mm5) (two 0 0x0123456789ABCDEF))).map
    (fun t => (t.x .ecx, t.ftw)) = some (0x89ABCDEF, 0) := by decide

theorem test_movdStore_2 : (nextOf (exec (.movdStore [] (.mem atEdi) .mm5) (two 0 0x0123456789ABCDEF))).map
    (fun t => t.mem.readList [0x4000, 0x4001, 0x4002, 0x4003, 0x4004]) = some [0xEF, 0xCD, 0xAB, 0x89, 0] := by decide

theorem test_movqLoad : mmAfter (exec (.movqLoad [] .mm0 (.mem atEsi)) flat) .mm0 = some 0x0123456789ABCDEF := by decide

theorem test_movqStore : (nextOf (exec (.movqStore [] (.mem atEdi) .mm5) (two 0 0x0123456789ABCDEF))).map
    (fun t => t.mem.readList [0x4000, 0x4001, 0x4002, 0x4003, 0x4004, 0x4005, 0x4006, 0x4007]) =
      some [0xEF, 0xCD, 0xAB, 0x89, 0x67, 0x45, 0x23, 0x01] := by decide

theorem test_movqStore_2 : mmAfter (exec (.movqStore [] (.reg .mm3) .mm5) (two 0 7)) .mm3 = some 7 := by decide

theorem test_emms : (nextOf (exec (.emms []) { two 5 6 with ftw := 0x5A5A, top := 3 })).map
    (fun t => (t.ftw, t.top, t.mm .mm3, t.pc)) = some (0xFFFF, 0, 5, 0x1002) := by decide

theorem test_cpuid : (nextOf (exec (.cpuid []) { flat with gpr := { flat.gpr with eax := 0 } })).map
    (fun t => (t.x .ebx, t.x .edx, t.x .ecx, t.pc)) = some (0x68747541, 0x69746E65, 0x444D4163, 0x1002) := by decide

/-- The count is read before the write (R24): PSLLW mm3, mm3. -/
theorem test_psllw_self : mmAfter (exec (.psllw [] .mm3 (.reg .mm3)) (two 4 0)) .mm3 = some 0x40 := by decide

/-! ## Decoding: further vectors of 95_test_vectors.md 3.1 and refusals -/

theorem test_decode_sib_disp32 : decode .a32 [0x0F, 0xFC, 0x84, 0x88, 0x78, 0x56, 0x34, 0x12] =
    .ok (.paddb [] .mm0 (.mem (.a32 (.sib 2 (some .ecx) .eax (.d32 0x12345678)))), []) := by decide

theorem test_decode_ebp_disp8 : decode .a32 [0x0F, 0x6F, 0x45, 0x00] =
    .ok (.movqLoad [] .mm0 (.mem (.a32 (.base .ebp (.d8 0)))), []) := by decide

theorem test_decode_esp : decode .a32 [0x0F, 0x6F, 0x04, 0x24] =
    .ok (.movqLoad [] .mm0 (.mem (.a32 (.sib 0 none .esp .none))), []) := by decide

theorem test_decode_sib_no_base : decode .a32 [0x0F, 0x6F, 0x04, 0x25, 0x00, 0x10, 0x00, 0x00] =
    .ok (.movqLoad [] .mm0 (.mem (.a32 (.sibAbs 0 none 0x1000))), []) := by decide

theorem test_decode_disp16 : decode .a32 [0x67, 0x0F, 0x6F, 0x06, 0x34, 0x12] =
    .ok (.movqLoad [.addrSize] .mm0 (.mem (.a16 (.abs 0x1234))), []) := by decide

theorem test_decode_16_bit_segment : decode .a16 [0x0F, 0x6F, 0x42, 0x10] =
    .ok (.movqLoad [] .mm0 (.mem (.a16 (.based .bpsi (.d8 0x10)))), []) := by decide

theorem test_decode_refuses : (decode .a32 [0x0F, 0x73, 0xE0, 0x01] = .error (.unassignedShift 0x73 4)) ∧
    (decode .a32 [0x0F, 0x71, 0x16, 0x08] = .error (.shiftWithMemory 0x71)) ∧
    (decode .a32 [0x0F, 0x70, 0xC1, 0x00] = .error (.unassignedOpcode 0x70)) ∧
    (decode .a32 [0x66, 0x0F, 0xFC, 0xC1] = .error (.pfxNotInSource 0x66)) ∧
    (decode .a32 [0xF0, 0x0F, 0xA2] = .error .lockOnCpuid) ∧ (decode .a32 [0x90] = .error (.notTwoByteOpcode 0x90)) := by
  decide

theorem test_decode_too_long :
    decode .a32 (List.replicate 13 0x26 ++ [0x0F, 0xFC, 0xC1]) = .error .tooLong := by decide

theorem test_table_word : decodeTableWord 24 0x0FFCC1 = some (.paddb [] .mm0 (.reg .mm1)) ∧
    decodeTableWord 16 0x0F77 = some (.emms []) := by decide

theorem test_fetch_word : (nextOf (step (State.reset.withFetchWord 24 0x0F6EC0))).map
    (fun t => (t.pc, t.ftw)) = some (0xFFF3, 0) := by decide

/-! ## Effective addresses: 95_test_vectors.md 3.2 -/

theorem test_address_wraps32 : offsetOf { flat with gpr := { flat.gpr with ebx := 0xFFFFFFF8, ecx := 1 } }
    (.a32 (.sib 3 (some .ecx) .ebx (.d8 0x10))) = 0x10 := by decide

theorem test_address_disp8_negative : offsetOf flat (.a32 (.base .ebp (.d8 0xF8))) = 0x2FF8 := by decide

theorem test_address_wraps16 : offsetOf { flat with gpr := { flat.gpr with ebx := 0x1234FFFF, esi := 2 } }
    (.a16 (.based .bxsi .none)) = 1 := by decide

theorem test_segment_override : segmentOf [.seg .ds] (.a32 (.base .ebp (.d8 0))) = .ds ∧
    segmentOf [] (.a32 (.base .ebp (.d8 0))) = .ss := by decide

/-! ## Exceptions: 95_test_vectors.md 3.3 -/

theorem test_em_before_ts : raisedBy (exec (.paddb [] .mm0 (.reg .mm1)) (withCr0 0xC)) = some .invalidOpcode := by decide

theorem test_lock : raisedBy (exec (.paddb [.lock] .mm0 (.mem atEsi)) (withCr0 0x8)) = some .invalidOpcode := by decide

theorem test_ts_before_pending : raisedBy (exec (.emms []) { withCr0 0x28 with fpPending := true }) =
    some .deviceNotAvailable := by decide

theorem test_pending : (nextOf (exec (.paddb [] .mm0 (.reg .mm1)) { withCr0 0x20 with fpPending := true })).map
    (fun t => (t.ferr, t.control)) = some (true, .environment ⟨.floatingPoint, 0x1000⟩) := by decide

theorem test_alignment : raisedBy (exec (.movqLoad [] .mm0 (.mem (.a32 (.base .esi (.d8 1))))) (withCr0 0x40000)) =
    some .alignmentCheck := by decide

theorem test_alignment_movd4 : mmAfter (exec (.movdLoad [] .mm0 (.mem (.a32 (.base .esi (.d8 4))))) (withCr0 0x40000)) .mm0 =
    some 0x01234567 := by decide

theorem test_real_limit : mmAfter (exec (.movqLoad [] .mm0 (.mem (.a16 (.abs 0xFFF8)))) realMode) .mm0 = some 0 ∧
    raisedBy (exec (.movqLoad [] .mm0 (.mem (.a16 (.abs 0xFFF9)))) realMode) = some .generalProtection := by decide

theorem test_real_stack : raisedBy (exec (.movqLoad [] .mm0 (.mem (.a16 (.based .bp (.d8 0xF9)))))
    { realMode with gpr := { flat.gpr with ebp := 0 } }) = some .stack := by decide

theorem test_page_fault_second_page : raisedBy (exec (.movqStore [] (.mem (.a32 (.base .esi (.d8 0xFC)))) .mm0)
    { flat with paging := some [⟨0, 0x2000, 0, true, true⟩] }) = some .pageFault := by decide

theorem test_reset_step : refusedBy (step State.reset) = some .fetchOutsideText := by decide

/-! ## Witnesses: states and operands that meet the hypotheses of the statements -/

/-- DecodeOfEncode: a well-formed instruction of 15 bytes. -/
theorem witness_wf : (Instr.movqLoad [.seg .cs, .addrSize, .lock, .lock, .seg .es, .addrSize, .addrSize] .mm1
    (.mem (.a32 (.sibAbs 3 none 0x12345678)))).wf .a16 = true := by decide

/-- EncodeOfDecode. -/
theorem witness_decoded : decode .a16 [0xF0, 0x67, 0x0F, 0x6F, 0x45, 0xFC, 0x90] =
    .ok (.movqLoad [.lock, .addrSize] .mm0 (.mem (.a32 (.base .ebp (.d8 0xFC)))), [0x90]) := by decide

/-- UnassignedEncodingsRefused: a member of each list, an unassigned digit, a memory ModRM. -/
theorem witness_unassigned : (0x6C : Byte) ∈ [(0x6C : Byte), 0xFF] ∧ (0 : BitVec 3) ∉ [(2 : BitVec 3), 4, 6] ∧
    (2 : BitVec 2) ≠ 3 ∧ (0xF3 : Byte) ∈ [(0x66 : Byte), 0xF2, 0xF3] := by decide

/-- RegisterFiles. -/
theorem witness_registers : MmReg.mm1 ≠ .mm0 := by decide

/-- OperandSegment: other prefixes after an override. -/
theorem witness_other_prefixes : ∀ x ∈ [Pfx.addrSize, Pfx.lock], x = .addrSize ∨ x = .lock := by decide

/-- ReadIsLittleEndian, MemorySourceBytes: an unaligned read across the end of what is listed, and 4 bytes. -/
theorem witness_read : accessAddrs flat .ds 0x2001 8 .read =
      .ok [0x2001, 0x2002, 0x2003, 0x2004, 0x2005, 0x2006, 0x2007, 0x2008] ∧
    accessAddrs flat (segmentOf [] atEsi) (offsetOf flat atEsi) 8 .read =
      .ok [0x2000, 0x2001, 0x2002, 0x2003, 0x2004, 0x2005, 0x2006, 0x2007] ∧
    accessAddrs flat (segmentOf [] atEsi) (offsetOf flat atEsi) 4 .read = .ok [0x2000, 0x2001, 0x2002, 0x2003] := by
  decide

/-- WriteStoresBytes, MovdStoreLowDoubleword, MovqStoreCopies: stores to different addresses, memory in its form. -/
theorem witness_write : accessAddrs flat .ds 0x4000 8 .write =
      .ok [0x4000, 0x4001, 0x4002, 0x4003, 0x4004, 0x4005, 0x4006, 0x4007] ∧
    accessAddrs flat (segmentOf [] atEdi) (offsetOf flat atEdi) 4 .write = .ok [0x4000, 0x4001, 0x4002, 0x4003] ∧
    accessAddrs flat (segmentOf [] atEdi) (offsetOf flat atEdi) 8 .write =
      .ok [0x4000, 0x4001, 0x4002, 0x4003, 0x4004, 0x4005, 0x4006, 0x4007] ∧
    [0x4000, 0x4001, 0x4002, 0x4003, 0x4004, 0x4005, 0x4006, 0x4007].Nodup ∧ flat.mem.wf := by decide

/-- TranslateFailures, the offset bounds: one byte past 0FFFFh in Real and in V86 mode, past FFFF_FFFFh in Protected mode. -/
theorem witness_offset_limit : realMode.mode = .real ∧ 0x10000 < (0xFFF9 : DWord).toNat + 8 ∧
    { flat with mode := .v86 }.mode = .v86 ∧ flat.mode = .prot ∧ 2 ^ 32 < (0xFFFFFFF9 : DWord).toNat + 8 := by decide

/-- A data segment of one page without rights. -/
def closed : State := { flat with segs := { flat.segs with ds := ⟨0, 0, 0xFFF, false, false⟩ } }

/-- TranslateFailures, the segment: one byte past the limit; inside it without the right. -/
theorem witness_limit_and_rights : closed.mode = .prot ∧ NoEntry closed .ds 0xFF9 8 .read ∧
    (closed.segs.get .ds).limit.toNat + 1 < (0xFF9 : DWord).toNat + 8 ∧
    (0xFF8 : DWord).toNat + 8 ≤ (closed.segs.get .ds).limit.toNat + 1 ∧
    (closed.segs.get .ds).readable = false ∧ (closed.segs.get .ds).writable = false := by decide

/-- `flat` with paging that maps one page, read only, from 5000h on. -/
def paged : State := { flat with paging := some [⟨0, 0x2000, 0x5000, false, true⟩] }

/-- TranslateFailures, the pages: the last byte is not mapped; a write is not permitted. -/
theorem witness_page : NoEntry paged .ds 0x1FF9 8 .read ∧ Within paged .ds 0x1FF9 8 .read ∧ paged.mode ≠ .real ∧
    paged.paging = some [⟨0, 0x2000, 0x5000, false, true⟩] ∧
    (∀ r ∈ [(⟨0, 0x2000, 0x5000, false, true⟩ : PageRegion)],
      ¬Maps paged .read (linearOf paged .ds 0x1FF9 7) r ∧ ¬Maps paged .write (linearOf paged .ds 0x1FF8 0) r) := by
  decide

/-- TranslateFailures, a given failure: 12 through SS in Real mode at the last offset, 14 in Protected mode. -/
theorem witness_given_failure :
    (0xFFF8 : DWord).toNat + 8 ≤ (if realMode.mode = .prot then 2 ^ 32 else 2 ^ 16) ∧ flat.mode ≠ .real ∧
    raisedBy (exec (.movqLoad [] .mm0 (.mem atEsi))
      { flat with translation := [⟨.ds, 0x2000, 8, .read, .fails .page⟩] }) = some .pageFault := by decide

/-- AccessAfterChecks, what `Translate` answers: without paging, the last eight bytes of the segment; with paging. -/
theorem witness_translate : NoEntry flat .ds 0xFFFFFFF8 8 .read ∧ Within flat .ds 0xFFFFFFF8 8 .read ∧
    flat.paging = none ∧ Within realMode .ds 0xFFF8 8 .write ∧ Within paged .ds 0x1FF8 8 .read ∧
    (∀ k < 8, ∃ r ∈ [(⟨0, 0x2000, 0x5000, false, true⟩ : PageRegion)],
      Maps paged .read (linearOf paged .ds 0x1FF8 k) r) := by decide

/-- AccessAfterChecks, given addresses: the environment answers eight addresses that no segment and page would. -/
theorem test_given_addresses : mmAfter (exec (.movqLoad [] .mm0 (.mem (.a32 (.abs 0x20))))
    { flat with translation := [⟨.ds, 0x20, 8, .read,
      .addrs [0x2007, 0x2006, 0x2005, 0x2004, 0x2003, 0x2002, 0x2001, 0x2000]⟩] }) .mm0 = some 0xEFCDAB8967452301 := by
  decide

/-- `flat` with alignment checking armed. -/
def armed : State := withCr0 0x40000

/-- AlignmentCheckArming, first clause, with both values of `ac_gate` and in V86 mode. -/
theorem witness_armed :
    translateAddr armed .ds 0x2001 4 .read = .ok [0x2001, 0x2002, 0x2003, 0x2004] ∧ armed.am = true ∧
    armed.mode = .prot ∧ armed.cpl = 3 ∧ armed.platform.acGate = .always ∧ (0x2001 : DWord).toNat % 4 ≠ 0 ∧
    { armed with eflags := 0x40002 }.eflags.getLsbD 18 = true ∧
    translateAddr { armed with mode := .v86 } .ds 0x2001 4 .read = .ok [0x2001, 0x2002, 0x2003, 0x2004] := by decide

/-- AlignmentCheckArming, second and third clause. -/
theorem witness_not_armed : { armed.platform with acGate := .eflagsAc }.acGate = .eflagsAc ∧
    armed.eflags.getLsbD 18 = false ∧ realMode.mode = .real ∧ { armed with cpl := 2 }.cpl ≠ 3 ∧ flat.am = false ∧
    (0x2000 : DWord).toNat % 8 = 0 := by decide

/-- AccessAfterChecks: a device range touched, program text overlapped, and neither. -/
theorem witness_ranges : translateAddr flat .ds 0x8FFD 4 .write = .ok [0x8FFD, 0x8FFE, 0x8FFF, 0x9000] ∧
    inRanges flat.devices 0x9000 = true ∧
    translateAddr flat .ds 0x1006 4 .write = .ok [0x1006, 0x1007, 0x1008, 0x1009] ∧
    inRanges flat.text 0x1008 = true ∧ (∀ a ∈ [0x1006, 0x1007, 0x1008, 0x1009], inRanges flat.devices a = false) ∧
    (∀ a ∈ [0x1009, 0x100A, 0x100B, 0x100C], inRanges flat.devices a = false ∧ inRanges flat.text a = false) ∧
    flat.alignCheckArmed = false := by decide

/-- LoadSeesStore. -/
theorem witness_store_load : Ready [] flat ∧
    accessAddrs flat (segmentOf [] atEdi) (offsetOf flat atEdi) 8 .write =
      .ok [0x4000, 0x4001, 0x4002, 0x4003, 0x4004, 0x4005, 0x4006, 0x4007] ∧
    accessAddrs flat (segmentOf [] atEdi) (offsetOf flat atEdi) 8 .read =
      .ok [0x4000, 0x4001, 0x4002, 0x4003, 0x4004, 0x4005, 0x4006, 0x4007] ∧
    [0x4000, 0x4001, 0x4002, 0x4003, 0x4004, 0x4005, 0x4006, 0x4007].Nodup := by decide

/-- ChecksInOrder and `RaisesOnOneCause` of every form: LOCK, EM, TS, a pending exception with NE = 1, one at a time. -/
theorem witness_checks : List.contains [Pfx.lock] Pfx.lock = true ∧
    ((withCr0 4).em = true ∧ (withCr0 4).ts = false ∧ (withCr0 4).fpPending = false) ∧
    ((withCr0 8).em = false ∧ (withCr0 8).ts = true ∧ (withCr0 8).fpPending = false) ∧
    ((withCr0 0x20).em = false ∧ (withCr0 0x20).ts = false ∧ (withCr0 0x20).ne = true ∧
      { withCr0 0x20 with fpPending := true }.fpPending = true) ∧
    (Instr.emms []).isMmx = true := by decide

/-- A pending floating-point exception with CR0.NE = 0 and a policy. -/
def pending (p : Ne0Policy) : State := { flat with fpPending := true, platform := { flat.platform with ne0Policy := p } }

/-- PendingWithNeClear: the premises; and `ignore` with an instruction that completes. -/
theorem witness_pending : (Instr.emms []).isMmx = true ∧ (Instr.emms []).pfx.contains .lock = false ∧
    (pending .stuck).em = false ∧ (pending .stuck).ts = false ∧ (pending .stuck).ne = false ∧
    (pending .stuck).fpPending = true ∧ (pending .stuck).platform.ne0Policy = .stuck ∧
    (pending (.externalInterrupt 13)).platform.ne0Policy = .externalInterrupt 13 ∧
    (nextOf (exec (.emms []) { pending .ignore with ferr := true, fpPending := false })).isSome = true := by decide

/-- ExceptionsArePrecise, RegisterFormsRaiseNoMemoryException: a register form that raises, and a memory form. -/
theorem witness_raise : flat.control = .running ∧ (Instr.emms []).hasMem = false ∧
    raisedBy (exec (.emms []) (withCr0 8)) = some .deviceNotAvailable ∧
    raisedBy (exec (.pand [] .mm0 (.mem atEsi)) { closed with gpr := { flat.gpr with esi := 0xFF8 } }) =
      some .generalProtection := by decide

/-- An image of zeros. -/
def zeroImage : FpImage := { fpr := State.reset.fpr, ftw := 0xFFFF, top := 0, fpPending := false }

/-- A state in which task 1 runs and task 0 used the registers last. -/
def switched : State := { withCr0 8 with os := some { current := 1, owner := 0, areas := [(1, zeroImage)] } }

/-- Interrupt7Protocol: the registers belong to another task, or to the running one. -/
theorem witness_int7 : (Instr.emms []).isMmx = true ∧ (Instr.emms []).pfx.contains .lock = false ∧
    switched.os = some { current := 1, owner := 0, areas := [(1, zeroImage)] } ∧ switched.ts = true ∧ switched.em = false ∧
    (TaskTable.area { current := 1, owner := 0, areas := [(1, zeroImage)] } 1 = some zeroImage) ∧
    { switched with os := some ⟨0, 0, []⟩ }.os = some { current := 0, owner := 0, areas := [] } := by decide

/-- Interrupt7Protocol as run: the exception, the handler's step, and TS clear. -/
theorem test_int7 : ((nextOf (exec (.emms []) switched)).bind fun u => nextOf (step u)).map
    (fun v => (v.ts, v.pc, v.control)) = some (false, 0x1000, .running) := by decide

/-- SaveAndRestore: the two values of TS, and with and without a task table. -/
theorem witness_save : (withCr0 8).ts = true ∧ (withCr0 4).em = true ∧ flat.ts = false ∧ flat.em = false ∧
    flat.fpPending = false ∧ flat.os = none ∧
    switched.os = some { current := 1, owner := 0, areas := [(1, zeroImage)] } := by decide

/-- SaveAndRestore, a pending exception: with CR0.NE = 1, and with NE = 0 under each `ne0_policy`. -/
theorem witness_save_pending : ∀ p ∈ [Ne0Policy.stuck, .externalInterrupt 13, .ignore],
    let s : State := { flat with fpPending := true, platform := { flat.platform with ne0Policy := p } }
    s.ts = false ∧ s.em = false ∧ s.fpPending = true ∧ s.ne = false ∧
      State.ne { s with cr0 := 0x20 } = true ∧ State.ts { s with cr0 := 0x20 } = false := by decide

/-- R39: FSAVE with CR0.NE = 1 observes a pending exception as interrupt 16, FERR# asserted. -/
theorem test_fsave_pending :
    (match State.fsave { withCr0 0x20 with fpPending := true } with
      | .error t => (t.control, t.ferr)
      | .ok _ => (.running, false)) = (.environment ⟨.floatingPoint, flat.pc⟩, true) := by decide

/-- R218: written 1, CR0.EM stops an MMX instruction with 6; written 0 again, it runs. -/
theorem test_write_em : (nextOf (exec (.emms []) (flat.writeEm true))).map (fun t => t.control) =
      some (.environment ⟨.invalidOpcode, flat.pc⟩) ∧
    (nextOf (exec (.emms []) ((flat.writeEm true).writeEm false))).map (fun t => t.ftw) = some 0xFFFF := by decide

/-- StepRunsDecoded, the emulation: interrupt 6 of MOVQ mm0, [esi] with CR0.EM = 1. -/
def emulating : State :=
  { withCr0 4 with emulator := true, control := .environment ⟨.invalidOpcode, 0x1000⟩ }

/-- StepRunsDecoded, the emulation: the premises, and the instruction completes. -/
theorem witness_emulation : emulating.control = .environment ⟨.invalidOpcode, emulating.pc⟩ ∧
    emulating.emulator = true ∧ emulating.em = true ∧
    decode emulating.defaultAddrSize (fetchWindow emulating) =
      .ok (.movqLoad [] .mm0 (.mem atEsi), [0x0F, 0x7F, 0x0F, 0x0F, 0xFC, 0xC1]) ∧ pcFits emulating 3 = true ∧
    (nextOf (exec (.movqLoad [] .mm0 (.mem atEsi)) { emulating with control := .running, cr0 := 0 })).map
      (fun t => t.control) = some .running := by decide

/-- The emulation as run: the register is written, EM is still 1, and the program goes on after the instruction. -/
theorem test_emulation : (nextOf (step emulating)).map (fun t => (t.mm .mm0, t.em, t.pc, t.control)) =
    some (0x0123456789ABCDEF, true, 0x1003, .running) := by decide

/-- MemoryFrame, the last clause: a store to a writable operand that raises 7. -/
theorem witness_raising_store : (withCr0 8).control = .running ∧
    storedAddrs (.movdStore [] (.mem atEdi) .mm1) (withCr0 8) = [0x4000, 0x4001, 0x4002, 0x4003] ∧
    raisedBy (exec (.movdStore [] (.mem atEdi) .mm1) (withCr0 8)) = some .deviceNotAvailable := by decide

/-- The frames (CompletedGoesOnAfterInstruction, TagWordAfterInstruction, SystemStateUnchanged, GeneralRegisterFrame,
MemoryFrame, MmRegisterFrame): MMX instructions and CPUID that complete; a form that stores, and one that does not. -/
theorem witness_frames : (nextOf (exec (.movqStore [] (.mem atEdi) .mm1) flat)).map (fun t => t.control) = some .running ∧
    (nextOf (exec (.cpuid []) flat)).map (fun t => t.control) = some .running ∧
    (nextOf (exec (.movdStore [] (.reg .ecx) .mm1) flat)).map (fun t => t.control) = some .running ∧
    (Instr.cpuid []).isMmx = false ∧ Gpr.eax ≠ .ecx ∧
    storedAddrs (.movdStore [] (.mem atEdi) .mm1) flat = [0x4000, 0x4001, 0x4002, 0x4003] ∧
    storedAddrs (.emms []) flat = [] ∧ (Instr.movqLoad [] .mm2 (.reg .mm1)).mmDst ≠ some .mm1 := by decide

/-- Every statement over `PackedForm`, `ImmForm`, EMMS and the moves: the checks pass and the operand is readable, in a
register or in memory; it raises; the model refuses it. -/
theorem witness_operand : Ready [] flat ∧ src64 [] flat (.reg .mm1) = .ok 0 ∧
    src64 [] flat (.mem atEsi) = .ok 0x0123456789ABCDEF ∧ src32 [] flat (.mem atEsi) = .ok 0x89ABCDEF ∧
    src64 [] flat (.mem (.a32 (.abs 0xFFFFFFF9))) = .error (.raise .generalProtection) ∧
    src64 [] flat (.mem (.a32 (.abs 0x9000))) = .error (.refuse .deviceAccess) ∧
    src32 [] flat (.mem (.a32 (.abs 0xFFFFFFFD))) = .error (.raise .generalProtection) ∧
    src32 [] flat (.mem (.a32 (.abs 0x900F))) = .error (.refuse .deviceAccess) := by decide

/-- ChecksInOrder, the operand's access: reads and writes that raise, and that the model refuses. -/
theorem witness_access :
    (Instr.pand [] .mm0 (.mem (.a32 (.abs 0xFFFFFFF9)))).access = some (.a32 (.abs 0xFFFFFFF9), 8, .read) ∧
    (Instr.movdStore [] (.mem (.a32 (.abs 0x1008))) .mm0).access = some (.a32 (.abs 0x1008), 4, .write) ∧
    accessAddrs flat .ds (offsetOf flat (.a32 (.abs 0xFFFFFFF9))) 8 .read = .error (.raise .generalProtection) ∧
    accessAddrs flat .ds (offsetOf flat (.a32 (.abs 0x9000))) 8 .read = .error (.refuse .deviceAccess) ∧
    accessAddrs flat .ds (offsetOf flat (.a32 (.abs 0xFFFFFFFD))) 4 .write = .error (.raise .generalProtection) ∧
    accessAddrs flat .ds (offsetOf flat (.a32 (.abs 0x1008))) 4 .write = .error (.refuse .storeIntoText) ∧
    accessAddrs flat .ds (offsetOf flat (.a32 (.abs 0xFFFFFFF9))) 8 .write = .error (.raise .generalProtection) ∧
    accessAddrs flat .ds (offsetOf flat (.a32 (.abs 0x1008))) 8 .write = .error (.refuse .storeIntoText) := by decide

/-- The shifts: counts of exactly the element widths. -/
theorem witness_counts : 16 ≤ (0x10 : QWord).toNat ∧ 32 ≤ (0x20 : QWord).toNat ∧ 64 ≤ (0x40 : Byte).toNat := by decide

/-- The CPUID functions of CpuidResults. -/
theorem witness_cpuid : State.reset.gpr.eax = 0 ∧ { flat.gpr with eax := 1 }.eax = 1 ∧
    { flat.gpr with eax := 0x80000001 }.eax = 0x80000001 ∧ flat.gpr.eax ≠ 0 ∧ flat.gpr.eax ≠ 1 ∧
    flat.gpr.eax ≠ 0x80000001 := by decide

/-- SampleInstructions: the stack is writable and readable, a bit of EFLAGS that software may not change and no
arithmetic flag. -/
theorem witness_stack : (memWrite flat .ss (flat.x .esp - 4) 4 flat.eflags.toNat).toOption.isSome = true ∧
    (memRead flat .ss (flat.x .esp) 4).toOption = some 0 ∧ flat.platform.popfdMask.getLsbD 1 = false ∧
    1 ∉ arithFlags := by decide

/-- `flat` with PUSHFD at pc. -/
def pushing : State := placeCode { flat with text := [], pc := 0x5000 } [0x9C]

/-- StepRunsDecoded: the program has control and the bytes at pc decode; the bytes are a sample instruction. -/
theorem witness_step : flat.control = .running ∧
    decode flat.defaultAddrSize (fetchWindow flat) =
      .ok (.movqLoad [] .mm0 (.mem atEsi), [0x0F, 0x7F, 0x0F, 0x0F, 0xFC, 0xC1]) ∧ pcFits flat 3 = true ∧
    decode pushing.defaultAddrSize (fetchWindow pushing) = .error (.notTwoByteOpcode 0x9C) ∧
    decodeHost pushing.defaultAddrSize (fetchWindow pushing) = some (.pushfd, []) ∧ pcFits pushing 1 = true := by decide

/-- StepRunsEncodedInstruction. -/
theorem witness_fetch : (Instr.movqLoad [] .mm0 (.mem atEsi)).wf flat.defaultAddrSize = true ∧
    [fetchByte flat 0, fetchByte flat 1, fetchByte flat 2] =
      (encode (.movqLoad [] .mm0 (.mem atEsi))).map some := by decide

/-- StepKeepsInvariant: a state with the invariant and a step that goes on. -/
theorem witness_invariant : flat.Inv ∧ (nextOf (step flat)).isSome = true := by
  refine ⟨⟨by decide, by decide, ?_⟩, by decide⟩
  intro e h
  cases h

/-- ProgramTextNeverChanges, StepKeepsSystemRegisters: a step that stores, in a state with program text; a step that
changes CR0. -/
theorem witness_storing_step : (nextOf (step { flat with pc := 0x1003 })).map (fun t => t.pc) = some 0x1006 ∧
    inRanges flat.text 0x1003 = true ∧
    ((nextOf (exec (.emms []) switched)).bind fun u => (nextOf (step u)).map fun v => decide (v.cr0 ≠ u.cr0)) =
      some true := by decide

end Sys2Proof.Tests
end

section
/-! PROOFS. What a step runs (00_scope.md R13, 30_encoding.md R99, R100): the fetch neither reads CR0 nor who has control,
so that the emulation of R233 fetches the instruction that raised; the step by who has control and what is fetched. -/

namespace Sys2Proof.Machine

open Sys2Proof

/-! ## The fetch reads neither CR0 nor who has control -/

theorem physAddrs_control_cr0 (s : State) (c : Control) (w : DWord) (kind : AccessKind) (ls : List Nat) :
    physAddrs { s with control := c, cr0 := w } kind ls = physAddrs s kind ls := by
  induction ls with
  | nil => rfl
  | cons l ls ih => simp only [physAddrs, ih]; rfl

theorem translateAddr_control_cr0 (s : State) (c : Control) (w : DWord) (seg : Seg) (off : DWord) (n : Nat)
    (kind : AccessKind) :
    translateAddr { s with control := c, cr0 := w } seg off n kind = translateAddr s seg off n kind := by
  have htables : translateByTables { s with control := c, cr0 := w } seg off n kind =
      translateByTables s seg off n kind := by
    unfold translateByTables
    rw [physAddrs_control_cr0]
    rfl
  unfold translateAddr
  rw [htables]
  rfl

theorem fetchByte_control_cr0 (s : State) (c : Control) (w : DWord) (k : Nat) :
    fetchByte { s with control := c, cr0 := w } k = fetchByte s k := by
  have haddr : codeAddr { s with control := c, cr0 := w } k = codeAddr s k := by
    unfold codeAddr
    rw [translateAddr_control_cr0]
    rfl
  unfold fetchByte
  rw [haddr]

theorem fetchBytes_control_cr0 (s : State) (c : Control) (w : DWord) (n k : Nat) :
    fetchBytes { s with control := c, cr0 := w } n k = fetchBytes s n k := by
  induction n generalizing k with
  | zero => rfl
  | succ n ih => simp only [fetchBytes, fetchByte_control_cr0, ih]

theorem fetchDecode_control_cr0 (s : State) (c : Control) (w : DWord) :
    fetchDecode { s with control := c, cr0 := w } = fetchDecode s := by
  have hwindow : fetchWindow { s with control := c, cr0 := w } = fetchWindow s := fetchBytes_control_cr0 s c w _ 0
  unfold fetchDecode
  rw [hwindow]
  rfl

/-! ## What a fetch finds -/

theorem fetchDecode_of_decode {s : State} {i : Instr} {rest : List Byte}
    (hdec : decode s.defaultAddrSize (fetchWindow s) = .ok (i, rest))
    (hfits : pcFits s ((fetchWindow s).length - rest.length) = true) : fetchDecode s = .mmx i := by
  simp only [fetchDecode, hdec, hfits, if_true]

theorem fetchDecode_of_decodeHost {s : State} {e : DecodeError} {h : HostInstr} {rest : List Byte}
    (hdec : decode s.defaultAddrSize (fetchWindow s) = .error e)
    (hhost : decodeHost s.defaultAddrSize (fetchWindow s) = some (h, rest))
    (hfits : pcFits s ((fetchWindow s).length - rest.length) = true) : fetchDecode s = .host h := by
  simp only [fetchDecode, hdec, hhost, hfits, if_true]

/-! ## The step, by who has control -/

theorem step_of_running {s : State} (hrun : s.control = .running) : step s = runInstruction s := by
  simp only [step, hrun]

theorem step_of_environment {s : State} {e : ExcOutcome} (henv : s.control = .environment e) :
    step s = environmentStep e s := by
  simp only [step, henv]

theorem runInstruction_of_mmx {s : State} {i : Instr} (hfetch : fetchDecode s = .mmx i) :
    runInstruction s = exec i s := by
  simp only [runInstruction, hfetch]

theorem runInstruction_of_host {s : State} {h : HostInstr} (hfetch : fetchDecode s = .host h) :
    runInstruction s = execHost h s := by
  simp only [runInstruction, hfetch]

/-! ## The emulation (R233) -/

/-- The contract covers an instruction that does not raise interrupt 6 again. -/
theorem emulated_next {t : State} (cr0 : DWord) (hno6 : ∀ e, t.control = .environment e → e.vector ≠ .invalidOpcode) :
    emulated cr0 (.next t) = .next { t with cr0 := cr0 } :=
  if_neg fun henv => hno6 _ henv rfl

/-- Precise exceptions (R232) make the instruction that is emulated the one at pc: the handler's fetch differs from the
program's in CR0.EM and in who has control only. -/
theorem emulate_at_pc {s : State} {v : ExcVector} {i : Instr} (hfetch : fetchDecode s = .mmx i) :
    s.emulate ⟨v, s.pc⟩ = emulated s.cr0 (exec i { s with control := .running, cr0 := s.cr0 &&& ~~~emMask }) := by
  have hreturn : State.returnFromHandler s.clearEm ⟨v, s.pc⟩ =
      { s with control := .running, cr0 := s.cr0 &&& ~~~emMask } := rfl
  simp only [State.emulate, hreturn, fetchDecode_control_cr0, hfetch]

theorem environmentStep_emulates {s : State} {pc : DWord} (hemu : s.emulator = true) (hem : s.em = true) :
    environmentStep ⟨.invalidOpcode, pc⟩ s = s.emulate ⟨.invalidOpcode, pc⟩ := by
  simp only [environmentStep, hemu, hem, Bool.and_self, if_true]

/-- Settles O55: by who has control and by what the fetch finds; the emulation fetches what the program would. -/
theorem stepRunsDecoded : Obligations.StepRunsDecoded := by
  refine ⟨fun s hrun => ⟨fun i rest hdec hfits => ?mmx, fun e h rest hdec hhost hfits => ?sample⟩,
    fun s t i rest henv hemu hem hdec hfits hexec hno6 => ?emulation⟩
  case mmx =>
    rw [step_of_running hrun, runInstruction_of_mmx (fetchDecode_of_decode hdec hfits)]
  case sample =>
    rw [step_of_running hrun, runInstruction_of_host (fetchDecode_of_decodeHost hdec hhost hfits)]
  case emulation =>
    calc step s = s.emulate ⟨.invalidOpcode, s.pc⟩ := by
          rw [step_of_environment henv, environmentStep_emulates hemu hem]
      _ = emulated s.cr0 (exec i { s with control := .running, cr0 := s.cr0 &&& ~~~emMask }) :=
          emulate_at_pc (fetchDecode_of_decode hdec hfits)
      _ = emulated s.cr0 (.next t) := congrArg (emulated s.cr0) hexec
      _ = .next { t with cr0 := s.cr0 } := emulated_next s.cr0 hno6

end Sys2Proof.Machine
end

section
/-! PROOFS. What an instruction of the opcode table leaves (10_state.md R25 to R36): one lemma says what a next state of
`exec` can be, that of an instruction which left the program or that of one which completed, and the frames follow. -/

namespace Sys2Proof

/-- The general registers an instruction writes: the destination of the MOVD store, and EAX, EBX, ECX, EDX of CPUID (R50,
R210). -/
def Instr.gprDsts : Instr → List Gpr
  | .movdStore _ (.reg r) _ => [r]
  | .cpuid _ => [.eax, .ebx, .ecx, .edx]
  | _ => []

end Sys2Proof

namespace Sys2Proof.Machine

open Sys2Proof

/-! ## The length of an instruction -/

/-- The encoding of an instruction is `ilen` bytes long (R99). -/
theorem encode_length (i : Instr) : (encode i).length = i.len := by
  cases i
  case emms | cpuid => exact Laws.encHead_bare_length _ _
  case psrlwImm | psrawImm | psllwImm | psrldImm | psradImm | pslldImm | psrlqImm | psllqImm =>
    exact Laws.encHead_imm_length _ _ _ _
  -- every other row has an `r/m` operand
  all_goals exact Laws.encHead_rm_length _ _ _ _ _

/-! ## The two kinds of next state -/

/-- The instruction did not complete: control left the program, and nothing else changed but FERR# (R226, R232). -/
def LeftProgram (s t : State) : Prop :=
  ∃ c, c ≠ .running ∧ t = { s with control := c, ferr := t.ferr }

/-- What `i` leaves in `t` where it completes from `s`: which of the registers it writes, and nothing of the system. -/
structure Completed (i : Instr) (s t : State) : Prop where
  system : SystemFrame s t
  control : t.control = s.control
  pc : t.pc = s.pc + BitVec.ofNat 32 i.len
  ftw : t.ftw = if i.isMmx then (if i.isEmms then 0xFFFF else 0x0000) else s.ftw
  top : t.top = if i.isMmx then 0 else s.top
  fpr : ∀ r, i.mmDst ≠ some r → t.fpr.get r = s.fpr.get r
  gpr : ∀ r, r ∉ i.gprDsts → t.gpr.get r = s.gpr.get r

/-- The frame is not about these fields. -/
theorem systemFrame_of_eq {s t : State}
    (h : t = { s with
      fpr := t.fpr, ftw := t.ftw, top := t.top, gpr := t.gpr, pc := t.pc, ferr := t.ferr, mem := t.mem,
      control := t.control }) : SystemFrame s t := by
  rw [h]
  exact ⟨rfl, rfl, rfl, rfl, rfl, rfl, rfl, rfl, rfl, rfl, rfl, rfl, rfl, rfl, rfl⟩

theorem leftProgram_raise (s : State) (v : ExcVector) : LeftProgram s (s.raise v) :=
  ⟨_, by simp, rfl⟩

theorem LeftProgram.of_ferr {s t : State} {b : Bool} (h : LeftProgram { s with ferr := b } t) : LeftProgram s t := h

theorem LeftProgram.systemFrame {s t : State} (h : LeftProgram s t) : SystemFrame s t := by
  obtain ⟨c, -, ht⟩ := h
  rw [ht]
  exact systemFrame_of_eq rfl

theorem LeftProgram.control_ne {s t : State} (h : LeftProgram s t) : t.control ≠ .running := by
  obtain ⟨c, hc, ht⟩ := h
  rw [ht]
  exact hc

theorem LeftProgram.fpr_eq {s t : State} (h : LeftProgram s t) : t.fpr = s.fpr := by
  obtain ⟨c, -, ht⟩ := h
  rw [ht]

theorem LeftProgram.gpr_eq {s t : State} (h : LeftProgram s t) : t.gpr = s.gpr := by
  obtain ⟨c, -, ht⟩ := h
  rw [ht]

/-! ## Next states of the shared operations -/

/-- A next state through the check: the instruction left the program, or its body ran, in the state as it was but for
FERR#, which an ignored pending exception asserts (R226, R228). -/
theorem mmxCheck_left_or_ran {p : Prefixes} {s t : State} {k : State → Result} (h : mmxCheck p s k = .next t) :
    LeftProgram s t ∨ ∃ b, k { s with ferr := b } = .next t := by
  obtain ⟨-, hran⟩ | ⟨-, -, -, hran⟩ | ⟨v, rfl, -⟩ | ⟨-, c, rfl, hc⟩ := mmxCheck_next h
  · exact .inr ⟨s.ferr, hran⟩
  · exact .inr ⟨true, hran⟩
  · exact .inl (leftProgram_raise s v)
  · refine .inl ⟨c, ?_, rfl⟩
    obtain rfl | ⟨n, rfl⟩ | rfl := hc <;> simp

/-- A next state through the check and an operand access: the instruction left the program, or the access answered and the
rest of the instruction ran. -/
theorem mmxCheck_withAccess_next {α : Type} {p : Prefixes} {s t : State} {a : State → Except Stop α}
    {k : State → α → Result} (h : mmxCheck p s (fun s => withAccess s (a s) (k s)) = .next t) :
    LeftProgram s t ∨ ∃ b v, a { s with ferr := b } = .ok v ∧ k { s with ferr := b } v = .next t := by
  obtain hleft | ⟨b, hran⟩ := mmxCheck_left_or_ran h
  · exact .inl hleft
  · obtain ⟨v, hv, hk⟩ | ⟨v, -, rfl⟩ := withAccess_next hran
    · exact .inr ⟨b, v, hv, hk⟩
    · exact .inl (leftProgram_raise { s with ferr := b } v).of_ferr

/-! ## What completes -/

/-- An instruction that writes an MMX register, sets the tags valid and goes on (R27, R110). -/
theorem completed_of_setMm {i : Instr} {dst : MmReg} (s : State) (b : Bool) (v : QWord) (hmmx : i.isMmx = true)
    (hemms : i.isEmms = false) (hdst : i.mmDst = some dst) :
    Completed i s (((State.setMm { s with ferr := b } dst v).setTagsValid).advance i.len) where
  system := systemFrame_of_eq rfl
  control := rfl
  pc := rfl
  ftw := by simp [hmmx, hemms]
  top := by simp [hmmx]
  fpr r hr := by
    have hne : r ≠ dst := fun e => hr (e ▸ hdst)
    simp [hne]
  gpr _ _ := rfl

/-- A store to memory, which writes no register but sets the tags valid (R27, R182, R184). -/
theorem completed_of_store {i : Instr} (s : State) (b : Bool) (m : Memory) (hmmx : i.isMmx = true)
    (hemms : i.isEmms = false) :
    Completed i s ((State.setTagsValid { s with ferr := b, mem := m }).advance i.len) where
  system := systemFrame_of_eq rfl
  control := rfl
  pc := rfl
  ftw := by simp [hmmx, hemms]
  top := by simp [hmmx]
  fpr _ _ := rfl
  gpr _ _ := rfl

/-- The MOVD store to a general register (R182). -/
theorem completed_of_setX (p : Prefixes) (r : Gpr) (src : MmReg) (s : State) (b : Bool) (v : DWord) :
    Completed (.movdStore p (.reg r) src) s
      (((State.setX { s with ferr := b } r v).setTagsValid).advance (lenRM p (.reg r))) where
  system := systemFrame_of_eq rfl
  control := rfl
  pc := rfl
  ftw := rfl
  top := rfl
  fpr _ _ := rfl
  gpr r' hr' := by
    have hne : r' ≠ r := by simpa [Instr.gprDsts] using hr'
    simp [hne]

/-- EMMS (R28, R140). -/
theorem completed_of_emms (p : Prefixes) (s : State) (b : Bool) :
    Completed (.emms p) s ((State.setTagsEmpty { s with ferr := b }).advance (lenBare p)) where
  system := systemFrame_of_eq rfl
  control := rfl
  pc := rfl
  ftw := rfl
  top := rfl
  fpr _ _ := rfl
  gpr _ _ := rfl

/-- CPUID, which makes no check and always completes (R210). -/
theorem execCpuid_completed {p : Prefixes} {s t : State} (h : execCpuid p s = .next t) : Completed (.cpuid p) s t := by
  cases h
  exact
    { system := systemFrame_of_eq rfl
      control := rfl
      pc := rfl
      ftw := rfl
      top := rfl
      fpr := fun _ _ => rfl
      gpr := fun r hr => by cases r <;> simp [Instr.gprDsts] at hr <;> rfl }

/-! ## Each form -/

/-- The forms `mmreg1, mmreg2/mem64` (R110). -/
theorem packedOp_next {i : Instr} {p : Prefixes} {dst : MmReg} {src : RM MmReg} {f : QWord → QWord → QWord} {s t : State}
    (hmmx : i.isMmx = true) (hemms : i.isEmms = false) (hdst : i.mmDst = some dst) (hlen : i.len = lenRM p src)
    (h : packedOp p dst src f s = .next t) : LeftProgram s t ∨ Completed i s t := by
  obtain hleft | ⟨b, v, -, ht⟩ := mmxCheck_withAccess_next h
  · exact .inl hleft
  · cases ht
    exact .inr (hlen ▸ completed_of_setMm s b _ hmmx hemms hdst)

/-- The shift-by-immediate forms (R190). -/
theorem immOp_next {i : Instr} {p : Prefixes} {dst : MmReg} {imm : Byte} {f : QWord → Nat → QWord} {s t : State}
    (hmmx : i.isMmx = true) (hemms : i.isEmms = false) (hdst : i.mmDst = some dst) (hlen : i.len = lenImm p)
    (h : immOp p dst imm f s = .next t) : LeftProgram s t ∨ Completed i s t := by
  obtain hleft | ⟨b, ht⟩ := mmxCheck_left_or_ran h
  · exact .inl hleft
  · cases ht
    exact .inr (hlen ▸ completed_of_setMm s b _ hmmx hemms hdst)

theorem execMovdLoad_next {p : Prefixes} {dst : MmReg} {src : RM Gpr} {s t : State}
    (h : execMovdLoad p dst src s = .next t) : LeftProgram s t ∨ Completed (.movdLoad p dst src) s t := by
  obtain hleft | ⟨b, v, -, ht⟩ := mmxCheck_withAccess_next h
  · exact .inl hleft
  · cases ht
    exact .inr (completed_of_setMm s b _ rfl rfl rfl)

/-- The mapped answer of an access is that of a passed access. -/
theorem except_map_eq_ok {ε α β : Type} {f : α → β} {x : Except ε α} {b : β} (h : x.map f = .ok b) :
    ∃ a, x = .ok a ∧ b = f a := by
  cases x with
  | error e => cases h
  | ok a =>
    cases h
    exact ⟨a, rfl, rfl⟩

/-- What a 32-bit store answers: the register written, or memory (R56). -/
theorem dst32_ok {p : Prefixes} {s t : State} {v : DWord} {dst : RM Gpr} (h : dst32 p s v dst = .ok t) :
    (∃ r, dst = .reg r ∧ t = s.setX r v) ∨ ∃ m mem, dst = .mem m ∧ t = { s with mem := mem } := by
  cases dst with
  | reg r =>
    cases h
    exact .inl ⟨r, rfl, rfl⟩
  | mem m =>
    obtain ⟨mem, -, rfl⟩ := except_map_eq_ok h
    exact .inr ⟨m, mem, rfl, rfl⟩

/-- What a 64-bit store answers: the register written, or memory (R56). -/
theorem dst64_ok {p : Prefixes} {s t : State} {v : QWord} {dst : RM MmReg} (h : dst64 p s v dst = .ok t) :
    (∃ r, dst = .reg r ∧ t = s.setMm r v) ∨ ∃ m mem, dst = .mem m ∧ t = { s with mem := mem } := by
  cases dst with
  | reg r =>
    cases h
    exact .inl ⟨r, rfl, rfl⟩
  | mem m =>
    obtain ⟨mem, -, rfl⟩ := except_map_eq_ok h
    exact .inr ⟨m, mem, rfl, rfl⟩

theorem execMovdStore_next {p : Prefixes} {dst : RM Gpr} {src : MmReg} {s t : State}
    (h : execMovdStore p dst src s = .next t) : LeftProgram s t ∨ Completed (.movdStore p dst src) s t := by
  obtain hleft | ⟨b, u, hu, ht⟩ := mmxCheck_withAccess_next h
  · exact .inl hleft
  · cases ht
    obtain ⟨r, rfl, rfl⟩ | ⟨m, mem, rfl, rfl⟩ := dst32_ok hu
    · exact .inr (completed_of_setX p r src s b _)
    · exact .inr (completed_of_store s b mem rfl rfl)

theorem execMovqStore_next {p : Prefixes} {dst : RM MmReg} {src : MmReg} {s t : State}
    (h : execMovqStore p dst src s = .next t) : LeftProgram s t ∨ Completed (.movqStore p dst src) s t := by
  obtain hleft | ⟨b, u, hu, ht⟩ := mmxCheck_withAccess_next h
  · exact .inl hleft
  · cases ht
    obtain ⟨r, rfl, rfl⟩ | ⟨m, mem, rfl, rfl⟩ := dst64_ok hu
    · exact .inr (completed_of_setMm s b _ rfl rfl rfl)
    · exact .inr (completed_of_store s b mem rfl rfl)

theorem execEmms_next {p : Prefixes} {s t : State} (h : execEmms p s = .next t) :
    LeftProgram s t ∨ Completed (.emms p) s t := by
  obtain hleft | ⟨b, ht⟩ := mmxCheck_left_or_ran h
  · exact .inl hleft
  · cases ht
    exact .inr (completed_of_emms p s b)

/-- Every next state of an instruction is one in which it left the program, or one in which it completed. -/
theorem exec_next {i : Instr} {s t : State} (h : exec i s = .next t) : LeftProgram s t ∨ Completed i s t := by
  cases i
  case movdLoad => exact execMovdLoad_next h
  case movdStore => exact execMovdStore_next h
  -- for these two unification does not find the lane function
  case movqLoad => exact packedOp_next (f := fun _ b => b) rfl rfl rfl rfl h
  case pandn => exact packedOp_next (f := fun a b => ~~~a &&& b) rfl rfl rfl rfl h
  case movqStore => exact execMovqStore_next h
  case emms => exact execEmms_next h
  case cpuid => exact .inr (execCpuid_completed h)
  case psrlwImm | psrawImm | psllwImm | psrldImm | psradImm | pslldImm | psrlqImm | psllqImm =>
    exact immOp_next rfl rfl rfl rfl h
  -- every other row is the common step of the forms `mmreg1, mmreg2/mem64`
  all_goals exact packedOp_next rfl rfl rfl rfl h

theorem Completed.of_running {i : Instr} {s t : State} (h : exec i s = .next t) (ht : t.control = .running) :
    Completed i s t :=
  (exec_next h).resolve_left fun hleft => hleft.control_ne ht

/-! ## The frames -/

/-- Settles O21: a completed instruction has moved pc by `ilen`, which is the length of its encoding. -/
theorem completedGoesOnAfterInstruction : Obligations.CompletedGoesOnAfterInstruction := by
  intro i s t _ h ht
  rw [encode_length]
  exact (Completed.of_running h ht).pc

/-- Settles O22: read off the state a completed instruction leaves. -/
theorem tagWordAfterInstruction : Obligations.TagWordAfterInstruction := by
  intro i s t _ h ht
  have hdone := Completed.of_running h ht
  exact ⟨fun hmmx => by simpa only [hmmx, if_true] using And.intro hdone.ftw hdone.top,
    fun hcpuid => by simpa [hcpuid] using And.intro hdone.ftw hdone.top⟩

theorem exec_systemFrame {i : Instr} {s t : State} (h : exec i s = .next t) : SystemFrame s t :=
  (exec_next h).elim LeftProgram.systemFrame Completed.system

/-- Settles O23: neither leaving the program nor completing changes the system's state. -/
theorem systemStateUnchanged : Obligations.SystemStateUnchanged :=
  fun _ _ _ => exec_systemFrame

theorem exec_gpr_other {i : Instr} {s t : State} (h : exec i s = .next t) {r : Gpr} (hr : r ∉ i.gprDsts) :
    t.x r = s.x r := by
  obtain hleft | hdone := exec_next h
  · rw [State.x, hleft.gpr_eq, State.x]
  · exact hdone.gpr r hr

theorem GprRegs.ext_get {g g' : GprRegs} (h : ∀ r, g.get r = g'.get r) : g = g' := by
  cases g
  cases g'
  exact GprRegs.mk.injEq .. ▸ ⟨h .eax, h .ecx, h .edx, h .ebx, h .esp, h .ebp, h .esi, h .edi⟩

/-- Settles O24: by the registers that the instruction has as destinations. -/
theorem generalRegisterFrame : Obligations.GeneralRegisterFrame := by
  intro i s t h
  split
  case h_1 p r src => exact fun r' hne => exec_gpr_other h (by simpa [Instr.gprDsts] using hne)
  case h_2 p =>
    have hother {r : Gpr} (hr : r ∉ [Gpr.eax, .ebx, .ecx, .edx]) : t.x r = s.x r := exec_gpr_other h hr
    exact ⟨hother (by decide), hother (by decide), hother (by decide), hother (by decide)⟩
  case h_3 hmovd hcpuid =>
    have hnone : i.gprDsts = [] := by
      unfold Instr.gprDsts
      split
      · exact (hmovd _ _ _ rfl).elim
      · exact (hcpuid _ rfl).elim
      · rfl
    exact GprRegs.ext_get fun r => exec_gpr_other h (by simp [hnone])

/-- Settles O26: an instruction that left the program wrote no register, one that completed its destination. -/
theorem mmRegisterFrame : Obligations.MmRegisterFrame := by
  intro i s t h r hr
  obtain hleft | hdone := exec_next h
  · rw [hleft.fpr_eq]
  · exact hdone.fpr r hr

end Sys2Proof.Machine
end

section
/-! PROOFS. The register files, EMMS and the two stores, each with its whole next state (10_state.md R20 to R29,
42_emms.md R140, 46_move.md R182, R184). -/

namespace Sys2Proof.Machine

open Sys2Proof

/-- Settles O5: the laws of the two register files, read through the updates of the state. -/
theorem registerFiles : Obligations.RegisterFiles := by
  refine ⟨fun s r r' v => ⟨State.mm_setMm s r r' v, ?own, fun hne => ?others⟩, State.x_setX⟩
  case own => rw [State.setMm_fpr, FpRegs.get_set, if_pos rfl, mmImage]
  case others => rw [State.setMm_fpr, FpRegs.get_set, if_neg hne]

/-! ## A pending floating-point exception (R226), by CR0.NE and `ne0_policy` -/

theorem fpReport_of_ne {β : Type} {s : State} (hne : s.ne = true) (stop go : State → β) :
    fpReport s stop go = stop (State.raised { s with ferr := true } .floatingPoint) :=
  if_pos hne

theorem fpReport_of_stuck {β : Type} {s : State} (hne : s.ne = false) (hpol : s.platform.ne0Policy = .stuck)
    (stop go : State → β) : fpReport s stop go = stop { s with ferr := true, control := .ferrWait } := by
  simp only [fpReport, hne, hpol, Bool.false_eq_true, if_false]
  rfl

theorem fpReport_of_external {β : Type} {s : State} {v : Nat} (hne : s.ne = false)
    (hpol : s.platform.ne0Policy = .externalInterrupt v) (stop go : State → β) :
    fpReport s stop go = stop (State.raised { s with ferr := true } (.external v)) := by
  simp only [fpReport, hne, hpol, Bool.false_eq_true, if_false]
  rfl

theorem fpReport_of_ignore {β : Type} {s : State} (hne : s.ne = false) (hpol : s.platform.ne0Policy = .ignore)
    (stop go : State → β) : fpReport s stop go = go { s with ferr := true } := by
  simp only [fpReport, hne, hpol, Bool.false_eq_true, if_false]
  rfl

/-! ## The exceptions of the check (R228), one cause at a time -/

theorem mmxCheck_raises {p : Prefixes} {s : State} (k : State → Result) :
    (p.contains .lock = true ∨ s.em = true → mmxCheck p s k = .next (s.raised .invalidOpcode)) ∧
    (p.contains .lock = false → s.em = false → s.ts = true → mmxCheck p s k = .next (s.raised .deviceNotAvailable)) ∧
    (p.contains .lock = false → s.em = false → s.ts = false → s.fpPending = true → s.ne = true →
      mmxCheck p s k = .next (State.raised { s with ferr := true } .floatingPoint)) := by
  refine ⟨fun hcause => ?_, fun hlock hem hts => ?_, fun hlock hem hts hpend hne => ?_⟩
  · unfold mmxCheck
    obtain hlock | hem := hcause
    · rw [if_pos hlock, State.raised_eq]
    · simp only [hem, if_true, ite_self, State.raised_eq]
  · simp only [mmxCheck, hlock, hem, hts, Bool.false_eq_true, if_false, if_true, State.raised_eq]
  · have hreport : mmxCheck p s k = fpReport s .next k := by
      simp only [mmxCheck, fpPendingEvent, hlock, hem, hts, hpend, Bool.false_eq_true, if_false, if_true]
    rw [hreport, fpReport_of_ne hne]

/-- Every MMX instruction raises on the causes of the check (R221, R222, R226). -/
theorem failsChecks_of_isMmx {i : Instr} (hmmx : i.isMmx = true) (s : State) : FailsChecks i s := by
  obtain ⟨k, hk⟩ := exec_mmxCheck i hmmx
  unfold FailsChecks
  rw [hk]
  exact mmxCheck_raises k

/-- A cause that is alone raises what it raises in R228's order. -/
theorem FailsChecks.raisesOnOneCause {i : Instr} {s : State} (h : FailsChecks i s) : RaisesOnOneCause i s := by
  obtain ⟨hinvalid, hdevice, hpending⟩ := h
  exact ⟨fun hcause _ _ => hinvalid hcause, fun hlock hem hts _ => hdevice hlock hem hts, hpending⟩

/-! ## EMMS -/

/-- Settles O35: the check passes and EMMS writes the tag word, TOP and pc. -/
theorem emmsEmptiesTags : Obligations.EmmsEmptiesTags := by
  refine fun p s => ⟨rfl, fun hready => ?_, (failsChecks_of_isMmx rfl s).raisesOnOneCause⟩
  show execEmms p s = _
  rw [execEmms, mmxCheck_ready hready]
  rfl

/-! ## Stores -/

/-- Bytes written to different addresses are read back, byte k at the k-th address (R55, R58). -/
theorem Memory.read_stored (m : Memory) {ps : List Nat} {n v k a : Nat} (hlen : ps.length = n) (hnd : ps.Nodup)
    (hk : ps[k]? = some a) : (m.writeList (ps.zip (leBytes n v))).read a = BitVec.ofNat 8 (v >>> (8 * k)) := by
  obtain ⟨hlt, rfl⟩ := List.getElem?_eq_some_iff.mp hk
  have hfst : (ps.zip (leBytes n v)).map Prod.fst = ps := List.map_fst_zip (by simp [hlen])
  have hmem : (ps[k], BitVec.ofNat 8 (v >>> (8 * k))) ∈ ps.zip (leBytes n v) := by
    refine List.mem_iff_getElem.mpr ⟨k, by simpa [hlen] using hlt, ?_⟩
    rw [List.getElem_zip, leBytes_getElem n v k (hlen ▸ hlt)]
  exact Memory.read_writeList_mem m _ (hfst.symm ▸ hnd) hmem

/-- A write whose access passes its checks (R55): byte k at the k-th address, every other byte as before. -/
theorem memWrite_stores {s : State} {seg : Seg} {off : DWord} {n : Nat} {ps : List Nat}
    (h : accessAddrs s seg off n .write = .ok ps) (v : Nat) :
    ∃ m, memWrite s seg off n v = .ok m ∧ (∀ a, a ∉ ps → m.read a = s.mem.read a) ∧
      (ps.Nodup → ∀ k a, ps[k]? = some a → m.read a = BitVec.ofNat 8 (v >>> (8 * k))) := by
  obtain ⟨-, hlen, -⟩ := accessAddrs_ok h
  have hwrite : memWrite s seg off n v = .ok (s.mem.writeList (ps.zip (leBytes n v))) := by simp only [memWrite, h]
  obtain ⟨qs, hqs, -, hother, -⟩ := memWrite_ok hwrite
  obtain rfl : ps = qs := Except.ok.inj (h.symm.trans hqs)
  exact ⟨_, hwrite, hother, fun hnd k a hk => Memory.read_stored s.mem hlen hnd hk⟩

/-- Byte k of the low doubleword is byte k of the quadword. -/
theorem extractLsb'_low_byte (q : QWord) {k : Nat} (hk : k < 4) :
    (q.extractLsb' 0 32).extractLsb' (8 * k) 8 = q.extractLsb' (8 * k) 8 := by
  ext i hi
  have hlt : 8 * k + i < 32 := by omega
  simp [hlt]

/-- Settles O43: the register form writes the register, the memory form the bytes that `memWrite_stores` names. -/
theorem movdStoreLowDoubleword : Obligations.MovdStoreLowDoubleword := by
  refine fun p r m src s => ⟨rfl, rfl, fun hready => ?register, fun hready ps hps => ?memory⟩
  case register =>
    show execMovdStore p (.reg r) src s = _
    rw [execMovdStore, mmxCheck_ready hready]
    rfl
  case memory =>
    obtain ⟨mem', hwrite, hother, hbytes⟩ := memWrite_stores hps ((s.mm src).extractLsb' 0 32).toNat
    refine ⟨mem', ?_, hother, fun hnd k a hk => ?_⟩
    · show execMovdStore p (.mem m) src s = _
      rw [execMovdStore, mmxCheck_ready hready, dst32, hwrite]
      rfl
    · obtain ⟨-, hlen, -⟩ := accessAddrs_ok hps
      obtain ⟨hlt, -⟩ := List.getElem?_eq_some_iff.mp hk
      exact (hbytes hnd k a hk).trans (extractLsb'_low_byte (s.mm src) (hlen ▸ hlt))

/-- Settles O45: as the MOVD store, with the MMX register or all eight bytes. -/
theorem movqStoreCopies : Obligations.MovqStoreCopies := by
  refine fun p r m src s => ⟨rfl, rfl, fun hready => ?register, fun hready ps hps => ?memory⟩
  case register =>
    refine ⟨_, ?_, State.wroteMm s r (s.mm src) (p.length + 3)⟩
    show execMovqStore p (.reg r) src s = _
    rw [execMovqStore, mmxCheck_ready hready]
    rfl
  case memory =>
    obtain ⟨mem', hwrite, hother, hbytes⟩ := memWrite_stores hps (s.mm src).toNat
    refine ⟨mem', ?_, hother, hbytes⟩
    show execMovqStore p (.mem m) src s = _
    rw [execMovqStore, mmxCheck_ready hready, dst64, hwrite]
    rfl

end Sys2Proof.Machine
end

section
/-! PROOFS. Bits of the control register and of EFLAGS (10_state.md R31, R32); the environment's operations on the MMX state
(48_host_instructions.md R215, R218, 60_exceptions.md R241) and the sample instructions (R214), each with its whole next
state. -/

namespace Sys2Proof.Machine

open Sys2Proof

/-! ## Bits of masks and of masked words -/

theorem getLsbD_emMask (k : Nat) : emMask.getLsbD k = decide (k = 2) := by
  rw [show emMask = BitVec.twoPow 32 2 from rfl, BitVec.getLsbD_twoPow]
  simp [eq_comm]

theorem getLsbD_tsMask (k : Nat) : tsMask.getLsbD k = decide (k = 3) := by
  rw [show tsMask = BitVec.twoPow 32 3 from rfl, BitVec.getLsbD_twoPow]
  simp [eq_comm]

theorem getLsbD_zfMask (k : Nat) : zfMask.getLsbD k = decide (k = 6) := by
  rw [show zfMask = BitVec.twoPow 32 6 from rfl, BitVec.getLsbD_twoPow]
  simp [eq_comm]

theorem getLsbD_idMask (k : Nat) : idMask.getLsbD k = decide (k = 21) := by
  rw [show idMask = BitVec.twoPow 32 21 from rfl, BitVec.getLsbD_twoPow]
  simp [eq_comm]

theorem getLsbD_arithMask {k : Nat} (hk : k ∉ arithFlags) : arithMask.getLsbD k = false := by
  have hlow : ∀ j < 32, j ∉ arithFlags → arithMask.getLsbD j = false := by decide
  rcases Nat.lt_or_ge k 32 with hlt | hge
  · exact hlow k hlt hk
  · exact BitVec.getLsbD_of_ge _ _ hge

theorem getLsbD_and_not (x m : DWord) (k : Nat) : (x &&& ~~~m).getLsbD k = (x.getLsbD k && !m.getLsbD k) := by
  rcases Nat.lt_or_ge k 32 with hlt | hge
  · simp [hlt]
  · simp [BitVec.getLsbD_of_ge x k hge]

theorem getLsbD_mergeBits (mask old new : DWord) (k : Nat) :
    (mergeBits mask old new).getLsbD k = if mask.getLsbD k then new.getLsbD k else old.getLsbD k := by
  rw [mergeBits, BitVec.getLsbD_or, getLsbD_and_not, BitVec.getLsbD_and]
  cases mask.getLsbD k <;> simp

/-- A write of CR0.EM gives that bit the value and leaves the others (R32, R218). -/
theorem getLsbD_cr0_writeEm (s : State) (b : Bool) (k : Nat) :
    (s.writeEm b).cr0.getLsbD k = if k = 2 then b else s.cr0.getLsbD k := by
  cases b
  · rw [State.writeEm_false, State.clearEm_cr0, getLsbD_and_not, getLsbD_emMask]
    split <;> simp [*]
  · rw [State.writeEm_true, State.setEm_cr0, BitVec.getLsbD_or, getLsbD_emMask]
    split <;> simp [*]

/-- A write of CR0.TS gives that bit the value and leaves the others (R32, R218). -/
theorem getLsbD_cr0_writeTs (s : State) (b : Bool) (k : Nat) :
    (s.writeTs b).cr0.getLsbD k = if k = 3 then b else s.cr0.getLsbD k := by
  cases b
  · rw [State.writeTs_false, State.clearTs_cr0, getLsbD_and_not, getLsbD_tsMask]
    split <;> simp [*]
  · rw [State.writeTs_true, State.setTs_cr0, BitVec.getLsbD_or, getLsbD_tsMask]
    split <;> simp [*]

theorem State.writeEm_eq (s : State) (b : Bool) : s.writeEm b = { s with cr0 := (s.writeEm b).cr0 } := by
  cases b <;> rfl

theorem State.writeTs_eq (s : State) (b : Bool) : s.writeTs b = { s with cr0 := (s.writeTs b).cr0 } := by
  cases b <;> rfl

/-! ## FSAVE and FRSTOR -/

theorem x87Check_unavailable {α : Type} {s : State} (h : s.ts = true ∨ s.em = true) (k : State → α) :
    x87Check s k = .error (s.raised .deviceNotAvailable) := by
  have hcause : (s.em || s.ts) = true := by
    rw [Bool.or_eq_true]
    exact h.symm
  simp only [x87Check, hcause, if_true, State.raised_eq]

theorem x87Check_pending {α : Type} {s : State} (hts : s.ts = false) (hem : s.em = false) (hpend : s.fpPending = true)
    (k : State → α) : x87Check s k = fpReport s .error fun s' => .ok (k s') := by
  simp only [x87Check, hem, hts, hpend, Bool.or_self, Bool.false_eq_true, if_false, if_true]

/-- Settles O20: FSAVE and FRSTOR by the check they share, the writes of CR0 bit by bit. -/
theorem saveAndRestore : Obligations.SaveAndRestore := by
  intro s u n img b
  refine ⟨fun hcause => ?unavailable, fun hts hem hpend => ?pending, fun hts hem hpend => ?completes, ?taskSwitch, ?writeEm,
    ?writeTs⟩
  case unavailable => exact ⟨x87Check_unavailable hcause _, x87Check_unavailable hcause _⟩
  case pending =>
    rw [State.fsave, State.frstor, x87Check_pending hts hem hpend, x87Check_pending hts hem hpend]
    refine ⟨fun hne => ?_, fun hne hpol => ?_, fun v hne hpol => ?_, fun hne hpol => ?_⟩
    · exact ⟨fpReport_of_ne hne _ _, fpReport_of_ne hne _ _⟩
    · exact ⟨fpReport_of_stuck hne hpol _ _, fpReport_of_stuck hne hpol _ _⟩
    · exact ⟨fpReport_of_external hne hpol _ _, fpReport_of_external hne hpol _ _⟩
    · rw [fpReport_of_ignore hne hpol, fpReport_of_ignore hne hpol]
      simp only [State.fpImage, State.loadFpImage, hpend, and_self]
  case completes =>
    exact ⟨x87Check_ready hem hts hpend _, s.fpImage, x87Check_ready hem hts hpend _,
      fun huts huem hupend => x87Check_ready huem huts hupend _⟩
  case taskSwitch =>
    refine ⟨(s.writeTs true).cr0, s.os.map fun t => { t with current := n }, rfl, ?_, fun k hk => ?_, fun hos => ?_,
      fun t hos => ?_⟩
    · rw [getLsbD_cr0_writeTs, if_pos rfl]
    · rw [getLsbD_cr0_writeTs, if_neg hk]
    · rw [hos, Option.map_none]
    · rw [hos, Option.map_some]
  case writeEm =>
    refine ⟨(s.writeEm b).cr0, s.writeEm_eq b, ?_, fun k hk => ?_⟩
    · rw [getLsbD_cr0_writeEm, if_pos rfl]
    · rw [getLsbD_cr0_writeEm, if_neg hk]
  case writeTs =>
    refine ⟨(s.writeTs b).cr0, s.writeTs_eq b, ?_, fun k hk => ?_⟩
    · rw [getLsbD_cr0_writeTs, if_pos rfl]
    · rw [getLsbD_cr0_writeTs, if_neg hk]

/-! ## The sample instructions -/

theorem push32_ok {s : State} {v : DWord} {m : Memory} (h : memWrite s .ss (s.x .esp - 4) 4 v.toNat = .ok m) (n : Nat) :
    push32 v n s = .next { s with
      mem := m, gpr := s.gpr.set .esp (s.x .esp - 4), pc := s.pc + BitVec.ofNat 32 n } := by
  rw [push32, h]
  rfl

theorem pop32_ok {s : State} {v : Nat} (h : memRead s .ss (s.x .esp) 4 = .ok v) (k : DWord → State → State) (n : Nat) :
    pop32 k n s = .next ((k (BitVec.ofNat 32 v) (s.setX .esp (s.x .esp + 4))).advance n) := by
  rw [pop32, h]
  rfl

/-- The bits of EFLAGS that POPFD writes: the platform's, and ID (R31, R214). -/
theorem getLsbD_popfdBits (s : State) (k : Nat) :
    s.popfdBits.getLsbD k = decide (k = 21 ∨ s.platform.popfdMask.getLsbD k = true) := by
  rw [State.popfdBits, BitVec.getLsbD_or, getLsbD_idMask, Bool.decide_or, Bool.decide_eq_true, Bool.or_comm]

theorem getLsbD_freeArith {s : State} {k : Nat} (hk : k ∉ arithFlags) :
    s.freeArith.eflags.getLsbD k = s.eflags.getLsbD k := by
  rw [State.freeArith_eflags, getLsbD_mergeBits, getLsbD_arithMask hk, if_neg Bool.false_ne_true]

/-- What CMP and TEST leave in EFLAGS: ZF as stated, and every bit that is no arithmetic flag as before (R214). -/
theorem setZf_eflags_spec (s : State) (z : Bool) :
    (s.setZf z).eflags.getLsbD 6 = z ∧ ∀ k, k ∉ arithFlags → (s.setZf z).eflags.getLsbD k = s.eflags.getLsbD k := by
  rw [State.setZf_eflags]
  refine ⟨?_, fun k hk => ?_⟩
  · rw [getLsbD_mergeBits, getLsbD_zfMask, if_pos (decide_eq_true rfl)]
    cases z <;> rfl
  · have hne : k ≠ 6 := fun e => hk (e ▸ by decide)
    rw [getLsbD_mergeBits, getLsbD_zfMask, if_neg (by simpa using hne), getLsbD_mergeBits, getLsbD_arithMask hk,
      if_neg Bool.false_ne_true]

theorem execPopEax_ok {s : State} {v : Nat} (h : memRead s .ss (s.x .esp) 4 = .ok v) :
    execPopEax s = .next { s with
      gpr := (s.gpr.set .esp (s.x .esp + 4)).set .eax (BitVec.ofNat 32 v)
      pc := s.pc + 1 } :=
  pop32_ok h _ _

theorem execPopfd_ok {s : State} {v : Nat} (h : memRead s .ss (s.x .esp) 4 = .ok v) :
    execPopfd s = .next { s with
      eflags := mergeBits s.popfdBits s.eflags (BitVec.ofNat 32 v)
      gpr := s.gpr.set .esp (s.x .esp + 4)
      pc := s.pc + 1 } :=
  pop32_ok h _ _

/-- Settles O54: instruction by instruction, in the order of R214's table. -/
theorem sampleInstructions : Obligations.SampleInstructions := by
  intro s imm rel
  refine ⟨fun m hm => push32_ok hm 1, fun m hm => push32_ok hm 1, fun v hv => execPopEax_ok hv,
    fun v hv => ⟨_, execPopfd_ok hv, fun k => ?popfd⟩, rfl, rfl, ⟨_, _, rfl, fun k hk => ?xor⟩, ⟨_, _, rfl, ?cmp⟩,
    ⟨_, _, rfl, ?test⟩, ?jz, ?jnz⟩
  case popfd => simp only [getLsbD_mergeBits, getLsbD_popfdBits, decide_eq_true_eq]
  case xor => exact getLsbD_freeArith hk
  case cmp => exact setZf_eflags_spec s _
  case test => exact setZf_eflags_spec s _
  case jz =>
    show execJz rel s = _
    unfold execJz
    split <;> rfl
  case jnz =>
    show execJnz rel s = _
    unfold execJnz
    split <;> rfl

end Sys2Proof.Machine
end

section
/-! PROOFS. What a step leaves of the system's state (10_state.md R25, R31 to R35): one lemma says where a next state comes
from, and each source keeps the configuration of the machine. -/

namespace Sys2Proof.Machine

open Sys2Proof

/-! ## Where a next state comes from -/

/-- An emulated instruction's next state is the instruction's with CR0 as it was (R233). -/
theorem emulated_eq_next {cr0 : DWord} {r : Result} {t : State} (h : emulated cr0 r = .next t) :
    ∃ u, r = .next u ∧ t = { u with cr0 := cr0 } := by
  cases r with
  | next u =>
    simp only [emulated] at h
    split at h <;> cases h
    exact ⟨u, rfl, rfl⟩
  | fault f => cases h
  | refused r => cases h

/-- The emulation's next state is one of the instruction that the handler fetches, with EM = 0 (R233). -/
theorem emulate_next {s t : State} {e : ExcOutcome} (h : s.emulate e = .next t) :
    ∃ i u, exec i (s.clearEm.returnFromHandler e) = .next u ∧ t = { u with cr0 := s.cr0 } := by
  unfold State.emulate at h
  simp only at h
  split at h
  · obtain ⟨u, hu, rfl⟩ := emulated_eq_next h
    exact ⟨_, u, hu, rfl⟩
  · cases h
  · cases h

/-- The environment steps by the interrupt-7 protocol or by emulation (R233, R241). -/
theorem environmentStep_next {s t : State} {e : ExcOutcome} (h : environmentStep e s = .next t) :
    (e.vector = .deviceNotAvailable ∧ ∃ tasks, s.int7Handler tasks e = some t) ∨
      (e.vector = .invalidOpcode ∧ s.emulate e = .next t) := by
  unfold environmentStep at h
  split at h
  · rename_i hvec
    split at h
    · split at h <;> cases h
      exact .inl ⟨hvec, _, ‹_›⟩
    · cases h
  · rename_i hvec
    split at h
    · exact .inr ⟨hvec, h⟩
    · cases h
  · cases h

/-- A next state is that of an instruction of the table, of a sample instruction, or of the environment (R13, R233). -/
theorem step_next {s t : State} (h : step s = .next t) :
    (∃ i, exec i s = .next t) ∨ (∃ i, execHost i s = .next t) ∨
      ∃ e, s.control = .environment e ∧ environmentStep e s = .next t := by
  unfold step at h
  split at h
  · unfold runInstruction at h
    split at h
    · exact .inl ⟨_, h⟩
    · exact .inr (.inl ⟨_, h⟩)
    · cases h
  · exact .inr (.inr ⟨_, ‹_›, h⟩)
  · cases h

/-! ## The configuration of the machine -/

/-- What no step changes: mode, privilege level, segments, translation, devices, and what the platform and the operating
system have fixed (R25, R33, R34). -/
def ConfigFrame (s t : State) : Prop :=
  t.mode = s.mode ∧ t.cpl = s.cpl ∧ t.segs = s.segs ∧ t.paging = s.paging ∧ t.devices = s.devices ∧
  t.translation = s.translation ∧ t.emulator = s.emulator ∧ t.platform = s.platform ∧
  t.defaultAddrSize = s.defaultAddrSize

/-- The configuration, CR0 and FPpending are as before: what every step keeps but that of the interrupt-7 handler. -/
def SystemKept (s t : State) : Prop :=
  ConfigFrame s t ∧ t.cr0 = s.cr0 ∧ t.fpPending = s.fpPending

theorem SystemFrame.systemKept {s t : State} (h : SystemFrame s t) : SystemKept s t := by
  obtain ⟨-, hcr0, hsegs, hmode, hcpl, hpend, hsize, hpaging, htrans, -, hdev, -, hemu, hplat, -⟩ := h
  exact ⟨⟨hmode, hcpl, hsegs, hpaging, hdev, htrans, hemu, hplat, hsize⟩, hcr0, hpend⟩

/-- What is kept is not about these fields. -/
theorem systemKept_of_eq {s t : State}
    (h : t = { s with
      fpr := t.fpr, ftw := t.ftw, top := t.top, gpr := t.gpr, pc := t.pc, eflags := t.eflags, ferr := t.ferr,
      mem := t.mem, text := t.text, control := t.control, os := t.os, freeCount := t.freeCount }) : SystemKept s t := by
  rw [h]
  exact ⟨⟨rfl, rfl, rfl, rfl, rfl, rfl, rfl, rfl, rfl⟩, rfl, rfl⟩

theorem push32_systemKept {s t : State} {v : DWord} {n : Nat} (h : push32 v n s = .next t) : SystemKept s t := by
  obtain ⟨m, -, ht⟩ | ⟨u, -, rfl⟩ := withAccess_next h
  · cases ht
    exact systemKept_of_eq rfl
  · exact systemKept_of_eq rfl

/-- A POP keeps the system's state if what uses the value does. -/
theorem pop32_systemKept {s t : State} {k : DWord → State → State} {n : Nat} (h : pop32 k n s = .next t)
    (hk : ∀ v u, SystemKept s u → SystemKept s (k v u)) : SystemKept s t := by
  obtain ⟨v, -, ht⟩ | ⟨u, -, rfl⟩ := withAccess_next h
  · cases ht
    exact hk _ _ (systemKept_of_eq rfl)
  · exact systemKept_of_eq rfl

/-- No sample instruction changes the configuration, CR0 or FPpending (R214). -/
theorem execHost_systemKept {i : HostInstr} {s t : State} (h : execHost i s = .next t) : SystemKept s t := by
  cases i
  case pushfd | pushEax => exact push32_systemKept h
  case popEax => exact pop32_systemKept (k := fun v u => u.setX .eax v) h fun _ _ hu => hu
  case popfd =>
    exact pop32_systemKept (k := fun v u => { u with eflags := mergeBits u.popfdBits u.eflags v }) h fun _ _ hu => hu
  case jz | jnz =>
    cases h
    split <;> exact systemKept_of_eq rfl
  case movEbxEax | movEax | xorEax | cmpEaxEbx | testEdx =>
    cases h
    exact systemKept_of_eq rfl

/-- The emulation's own CR0.EM = 0 is undone (R233). -/
theorem emulate_systemKept {s t : State} {e : ExcOutcome} (h : s.emulate e = .next t) : SystemKept s t := by
  obtain ⟨i, u, hexec, rfl⟩ := emulate_next h
  obtain ⟨hconfig, -, hpend⟩ := (exec_systemFrame hexec).systemKept
  exact ⟨hconfig, rfl, hpend⟩

/-- The interrupt-7 handler keeps the configuration and writes CR0.TS alone (R241). -/
theorem int7Handler_some {s t : State} {tasks : TaskTable} {e : ExcOutcome} (h : s.int7Handler tasks e = some t) :
    ConfigFrame s t ∧ t.cr0 = (s.writeTs false).cr0 := by
  unfold State.int7Handler at h
  simp only at h
  split at h <;> cases h
  exact ⟨⟨rfl, rfl, rfl, rfl, rfl, rfl, rfl, rfl, rfl⟩, rfl⟩

/-- A step keeps the system's state, or is that of the interrupt-7 handler. -/
theorem step_systemKept_or_int7 {s t : State} (h : step s = .next t) :
    SystemKept s t ∨ ∃ e tasks, s.control = .environment e ∧ e.vector = .deviceNotAvailable ∧
      s.int7Handler tasks e = some t := by
  obtain ⟨i, hexec⟩ | ⟨i, hhost⟩ | ⟨e, hctl, henv⟩ := step_next h
  · exact .inl (exec_systemFrame hexec).systemKept
  · exact .inl (execHost_systemKept hhost)
  · obtain ⟨hvec, tasks, hint7⟩ | ⟨-, hemu⟩ := environmentStep_next henv
    · exact .inr ⟨e, tasks, hctl, hvec, hint7⟩
    · exact .inl (emulate_systemKept hemu)

theorem step_configFrame {s t : State} (h : step s = .next t) : ConfigFrame s t := by
  obtain ⟨hconfig, -⟩ | ⟨e, tasks, -, -, hint7⟩ := step_systemKept_or_int7 h
  · exact hconfig
  · exact (int7Handler_some hint7).1

/-- Of CR0 a step changes at most TS. -/
theorem step_cr0_other {s t : State} (h : step s = .next t) {k : Nat} (hk : k ≠ 3) :
    t.cr0.getLsbD k = s.cr0.getLsbD k := by
  obtain ⟨-, hcr0, -⟩ | ⟨e, tasks, -, -, hint7⟩ := step_systemKept_or_int7 h
  · rw [hcr0]
  · rw [(int7Handler_some hint7).2, getLsbD_cr0_writeTs, if_neg hk]

/-- The step that changes CR0 or FPpending is that of the interrupt-7 handler. -/
theorem step_cr0_fpPending {s t : State} (h : step s = .next t) (hchanged : t.cr0 ≠ s.cr0 ∨ t.fpPending ≠ s.fpPending) :
    ∃ e, s.control = .environment e ∧ e.vector = .deviceNotAvailable := by
  obtain ⟨-, hcr0, hpend⟩ | ⟨e, tasks, hctl, hvec, -⟩ := step_systemKept_or_int7 h
  · exact (hchanged.elim (· hcr0) (· hpend)).elim
  · exact ⟨e, hctl, hvec⟩

/-- Settles O60: every source of a next state keeps the configuration, and only the interrupt-7 handler writes CR0 or
FPpending. -/
theorem stepKeepsSystemRegisters : Obligations.StepKeepsSystemRegisters := by
  intro s t h
  obtain ⟨hmode, hcpl, hsegs, hpaging, hdev, htrans, hemu, hplat, hsize⟩ := step_configFrame h
  exact ⟨hmode, hcpl, hsegs, hpaging, hdev, htrans, hemu, hplat, hsize, fun _ => step_cr0_other h, step_cr0_fpPending h⟩

/-- Settles O58: no memory is listed, the mode is Real and the program has control. -/
theorem resetSatisfiesInvariant : Obligations.ResetSatisfiesInvariant :=
  ⟨⟨List.Pairwise.nil, fun _ hc => (List.not_mem_nil hc).elim⟩, nofun, nofun⟩

end Sys2Proof.Machine
end

section
/-! PROOFS. The offset and the segment of a memory operand (20_memory.md R51 to R53). -/

namespace Sys2Proof.Machine

open Sys2Proof

/-! ## The offset -/

/-- The scaled index as a number: the register times 1, 2, 4 or 8, modulo 2^32 (R51). -/
theorem toNat_scaledIndex (s : State) (ss : BitVec 2) (r : Gpr) :
    (scaledIndex s ss (some r)).toNat = ((s.x r).toNat * 2 ^ ss.toNat) % 2 ^ 32 := by
  rw [scaledIndex, BitVec.toNat_shiftLeft, Nat.shiftLeft_eq]

/-- The low half of a register as a number (R29). -/
theorem toNat_low16 (s : State) (r : Gpr) : (low16 s r).toNat = (s.x r).toNat % 2 ^ 16 := by
  rw [low16, BitVec.extractLsb'_toNat, Nat.shiftRight_zero]

/-- A 16-bit offset is zero-extended (R52). -/
theorem toNat_word_zeroExtend (w : Word) : (w.zeroExtend 32).toNat = w.toNat :=
  BitVec.toNat_setWidth_of_le (by omega)

/-- With 16-bit addressing the sum is taken modulo 2^16 (R52). -/
theorem toNat_offsetOf_based (s : State) (b : Base16) (disp : Disp16) :
    (offsetOf s (.a16 (.based b disp))).toNat = ((base16 s b).toNat + (Disp16.value disp).toNat) % 2 ^ 16 := by
  rw [offsetOf, offset16, toNat_word_zeroExtend, BitVec.toNat_add]

/-- Two registers added in 16 bits. -/
theorem toNat_low16_add (s : State) (r r' : Gpr) :
    (low16 s r + low16 s r').toNat = ((s.x r).toNat + (s.x r').toNat) % 2 ^ 16 := by
  rw [BitVec.toNat_add, toNat_low16, toNat_low16, ← Nat.add_mod]

/-- Settles O6: each form's sum, moved from words to numbers. -/
theorem effectiveAddress : Obligations.EffectiveAddress := by
  refine ⟨fun s r b idx ss d8 d disp => ⟨rfl, ?base, ?sib, ?sibNoIndex, ?sibAbs, ?sibAbsNoIndex, rfl, ?disp8, rfl⟩,
    fun s d8 d disp => ⟨toNat_word_zeroExtend d, ?bxsi, ?bxdi, ?bpsi, ?bpdi, ?si, ?di, ?bp, ?bx, rfl, ?disp8', rfl⟩⟩
  case base => exact BitVec.toNat_add _ _
  case sib =>
    rw [offsetOf, offset32, BitVec.toNat_add, BitVec.toNat_add, toNat_scaledIndex, Nat.add_mod_mod, Nat.mod_add_mod]
  case sibNoIndex =>
    rw [offsetOf, offset32, scaledIndex, add_zero, BitVec.toNat_add]
  case sibAbs =>
    rw [offsetOf, offset32, BitVec.toNat_add, toNat_scaledIndex, Nat.mod_add_mod]
  case sibAbsNoIndex =>
    rw [offsetOf, offset32, scaledIndex, zero_add]
  case disp8 => exact BitVec.toInt_signExtend_of_le (by omega)
  case disp8' => exact BitVec.toInt_signExtend_of_le (by omega)
  case bxsi | bxdi | bpsi | bpdi =>
    rw [toNat_offsetOf_based, base16, toNat_low16_add, Nat.mod_add_mod]
  case si | di | bp | bx =>
    rw [toNat_offsetOf_based, base16, toNat_low16, Nat.mod_add_mod]

/-! ## The segment -/

/-- The address-size and LOCK bytes name no segment (R88). -/
theorem segments_eq_nil {p : Prefixes} (hp : ∀ x ∈ p, x = .addrSize ∨ x = .lock) : p.filterMap Pfx.segment = [] := by
  refine List.filterMap_eq_nil_iff.mpr fun x hx => ?_
  obtain rfl | rfl := hp x hx <;> rfl

/-- Without an override the segment is the operand's own (R53). -/
theorem segmentOf_default {p : Prefixes} (hp : ∀ x ∈ p, x = .addrSize ∨ x = .lock) (m : MemOp) :
    segmentOf p m = defaultSeg m := by
  rw [segmentOf, segOverride, segments_eq_nil hp]
  rfl

/-- The last override is the segment (R88). -/
theorem segmentOf_override (p : Prefixes) {q : Prefixes} (hq : ∀ x ∈ q, x = .addrSize ∨ x = .lock) (g : Seg) (m : MemOp) :
    segmentOf (p ++ .seg g :: q) m = g := by
  have hlast : (p ++ Pfx.seg g :: q).filterMap Pfx.segment = p.filterMap Pfx.segment ++ [g] := by
    rw [List.filterMap_append, List.filterMap_cons_some (f := Pfx.segment) (b := g) rfl, segments_eq_nil hq]
  rw [segmentOf, segOverride, hlast, List.getLast?_concat]
  rfl

theorem stackBase_iff (r : Gpr) : stackBase r = true ↔ r = .ebp ∨ r = .esp := by
  cases r <;> decide

/-- Settles O7: the override by the bytes that name a segment, the default by the form's base. -/
theorem operandSegment : Obligations.OperandSegment := by
  refine ⟨fun p q g m hq => segmentOf_override p hq g m, fun p hp => ?_⟩
  simp only [segmentOf_default hp]
  refine ⟨fun r d => ?base, fun ss idx b d => ?sib, fun _ => rfl, fun _ _ _ => rfl, fun _ => rfl, fun b d => ?based⟩
  case base => simp only [defaultSeg, stackBase_iff]
  case sib => simp only [defaultSeg, stackBase_iff]
  case based => cases b <;> rfl

end Sys2Proof.Machine
end

section
/-! PROOFS. `Translate` and the checks of an access (20_memory.md R57 to R70, 60_exceptions.md R223 to R227): what answers,
the environment's own answers, the segments or the page regions, and what is checked after it. All of it reads the system's
state only. -/

namespace Sys2Proof.Machine

open Sys2Proof

/-! ## An access reads only the system's state -/

theorem physAddrs_congr {s t : State} (hframe : SystemFrame s t) (kind : AccessKind) (ls : List Nat) :
    physAddrs t kind ls = physAddrs s kind ls := by
  obtain ⟨-, -, -, hmode, hcpl, -, -, hpaging, -⟩ := hframe
  have hone (l : Nat) : physAddr t kind l = physAddr s kind l := by
    simp only [physAddr, State.userLevel, hmode, hcpl, hpaging]
  induction ls with
  | nil => rfl
  | cons l ls ih => simp only [physAddrs, hone, ih]

theorem translateAddr_congr {s t : State} (hframe : SystemFrame s t) (seg : Seg) (off : DWord) (n : Nat)
    (kind : AccessKind) : translateAddr t seg off n kind = translateAddr s seg off n kind := by
  have hphys := physAddrs_congr hframe kind
  obtain ⟨-, -, hsegs, hmode, -, -, -, -, htrans, -⟩ := hframe
  have hlinear : linearAddr t seg off = linearAddr s seg off := by
    funext k
    simp only [linearAddr, hsegs]
  simp only [translateAddr, translateGiven, translateByTables, segmentCheck, hphys, hlinear, hsegs, hmode, htrans]

/-- The checks of an access read neither registers nor memory. -/
theorem accessAddrs_congr {s t : State} (hframe : SystemFrame s t) (seg : Seg) (off : DWord) (n : Nat)
    (kind : AccessKind) : accessAddrs t seg off n kind = accessAddrs s seg off n kind := by
  have htranslate := translateAddr_congr hframe seg off n kind
  obtain ⟨heflags, hcr0, -, hmode, hcpl, -, -, -, -, htext, hdevices, -, -, hplatform, -⟩ := hframe
  have harmed : t.alignCheckArmed = s.alignCheckArmed := by
    simp only [State.alignCheckArmed, State.am, State.ac, heflags, hcr0, hmode, hcpl, hplatform]
  simp only [accessAddrs, htranslate, harmed, htext, hdevices]

section Access

variable {s : State} {seg : Seg} {off : DWord} {n : Nat} {kind : AccessKind}

/-! ## The bound and the environment's own answers -/

theorem offsetBound_eq (mode : Mode) : offsetBound mode = if mode = .prot then 2 ^ 32 else 2 ^ 16 := by
  cases mode <;> rfl

theorem translateAddr_beyond (h : offsetBound s.mode < off.toNat + n) :
    translateAddr s seg off n kind = .error (limitException seg) :=
  if_pos h

theorem translateGiven_of_noEntry (h : NoEntry s seg off n kind) : translateGiven s seg off n kind = none := by
  rw [translateGiven, Option.map_eq_none_iff, List.find?_eq_none]
  intro e he hmatch
  simp only [Bool.and_eq_true, decide_eq_true_eq] at hmatch
  obtain ⟨⟨⟨⟨hseg, hoff⟩, hn⟩, hkind⟩, -⟩ := hmatch
  exact h e he ⟨hseg, hoff, hn, hkind⟩

/-- Without an answer of the environment's own the segments and page regions answer (log entry 7). -/
theorem translateAddr_of_noEntry (hnone : NoEntry s seg off n kind) (hin : off.toNat + n ≤ offsetBound s.mode) :
    translateAddr s seg off n kind = translateByTables s seg off n kind := by
  rw [translateAddr, if_neg (Nat.not_lt.mpr hin), translateGiven_of_noEntry hnone]

/-- The first answer for the arguments that R57 allows is the environment's. -/
theorem translateGiven_cons {answer : TranslateAnswer} (h : answer.allowed s.mode seg n = true) :
    translateGiven { s with translation := ⟨seg, off, n, kind, answer⟩ :: s.translation } seg off n kind =
      some answer := by
  simp only [translateGiven, List.find?_cons, h, decide_true, Bool.and_self, Option.map_some]

theorem translateAddr_given_fails {f : TranslateFailure} (hin : off.toNat + n ≤ offsetBound s.mode)
    (hpossible : f.possible s.mode seg = true) :
    translateAddr { s with translation := ⟨seg, off, n, kind, .fails f⟩ :: s.translation } seg off n kind =
      .error f.vector := by
  rw [translateAddr, if_neg (Nat.not_lt.mpr hin), translateGiven_cons (answer := .fails f) hpossible]

theorem translateAddr_given_addrs {ps : List Nat} (hin : off.toNat + n ≤ offsetBound s.mode) (hlen : ps.length = n) :
    translateAddr { s with translation := ⟨seg, off, n, kind, .addrs ps⟩ :: s.translation } seg off n kind = .ok ps := by
  rw [translateAddr, if_neg (Nat.not_lt.mpr hin), translateGiven_cons (answer := .addrs ps) (decide_eq_true hlen)]

/-! ## The segment -/

theorem segmentCheck_beyond (hprot : s.mode = .prot) (hlimit : (s.segs.get seg).limit.toNat + 1 < off.toNat + n) :
    segmentCheck s seg off n kind = some (limitException seg) := by
  simp only [segmentCheck, hprot, if_neg (Nat.not_le.mpr hlimit)]

theorem segmentCheck_denied (hprot : s.mode = .prot) (hlimit : off.toNat + n ≤ (s.segs.get seg).limit.toNat + 1)
    (hdenied : (s.segs.get seg).allows kind = false) :
    segmentCheck s seg off n kind = some .generalProtection := by
  simp only [segmentCheck, hprot, if_pos hlimit, hdenied, Bool.false_eq_true, if_false]

theorem segmentCheck_within (h : Within s seg off n kind) : segmentCheck s seg off n kind = none := by
  cases hmode : s.mode with
  | real | v86 => simp only [segmentCheck, hmode]
  | prot =>
    rw [Within, if_pos hmode] at h
    obtain ⟨hlimit, hread, hwrite⟩ := h
    have hallows : (s.segs.get seg).allows kind = true := by
      cases kind with
      | read => exact hread rfl
      | write => exact hwrite rfl
      | fetch => rfl
    simp only [segmentCheck, hmode, if_pos hlimit, hallows, if_true]

theorem Within.le_offsetBound (h : Within s seg off n kind) : off.toNat + n ≤ offsetBound s.mode := by
  cases hmode : s.mode with
  | real | v86 => simpa [Within, hmode, offsetBound] using h
  | prot =>
    rw [Within, if_pos hmode] at h
    have hlt := (s.segs.get seg).limit.isLt
    rw [offsetBound]
    omega

/-! ## Paging -/

theorem linearAddr_eq (s : State) (seg : Seg) (off : DWord) : linearAddr s seg off = linearOf s seg off := by
  funext k
  rw [linearAddr, BitVec.toNat_add, BitVec.toNat_add, BitVec.toNat_ofNat, Nat.add_mod_mod, Nat.mod_add_mod]

theorem permits_iff (s : State) (kind : AccessKind) (lin : Nat) (r : PageRegion) :
    PageRegion.permits s.userLevel kind lin r = true ↔ Maps s kind lin r := by
  have huser : (r.user || !s.userLevel) = true ↔ (s.mode = .v86 ∨ s.cpl = 3 → r.user = true) := by
    have hlevel : s.userLevel = true ↔ s.mode = .v86 ∨ s.cpl = 3 := by
      simp only [State.userLevel, Bool.or_eq_true, decide_eq_true_eq]
    rw [← hlevel]
    cases r.user <;> cases s.userLevel <;> decide
  have hwrite : (r.writable || kind != .write) = true ↔ (kind = .write → r.writable = true) := by
    cases r.writable <;> cases kind <;> decide
  simp only [PageRegion.permits, Bool.and_eq_true, decide_eq_true_eq, huser, hwrite, and_assoc]

theorem physAddr_unpaged (h : s.mode = .real ∨ s.paging = none) (kind : AccessKind) (lin : Nat) :
    physAddr s kind lin = some lin := by
  obtain hreal | hnone := h
  · simp only [physAddr, hreal]
  · cases hmode : s.mode <;> simp only [physAddr, hmode, hnone]

theorem physAddr_paged {rs : List PageRegion} (hmode : s.mode ≠ .real) (hpaging : s.paging = some rs)
    (kind : AccessKind) (lin : Nat) :
    physAddr s kind lin =
      (rs.find? (PageRegion.permits s.userLevel kind lin)).map fun r => r.phys + (lin - r.base) := by
  cases hcase : s.mode with
  | real => exact (hmode hcase).elim
  | v86 | prot => simp only [physAddr, hcase, hpaging]

theorem physAddr_unmapped {rs : List PageRegion} {lin : Nat} (hmode : s.mode ≠ .real) (hpaging : s.paging = some rs)
    (h : ∀ r ∈ rs, ¬Maps s kind lin r) : physAddr s kind lin = none := by
  rw [physAddr_paged hmode hpaging, Option.map_eq_none_iff, List.find?_eq_none]
  exact fun r hr hpermits => h r hr ((permits_iff s kind lin r).mp hpermits)

/-- Of several regions that map an address the first one listed gives the answer. -/
theorem physAddr_mapped {rs : List PageRegion} {lin : Nat} (hmode : s.mode ≠ .real) (hpaging : s.paging = some rs)
    (h : ∃ r ∈ rs, Maps s kind lin r) :
    ∃ r ∈ rs, Maps s kind lin r ∧ physAddr s kind lin = some (r.phys + (lin - r.base)) := by
  obtain ⟨r, hr, hmaps⟩ := h
  have hsome : (rs.find? (PageRegion.permits s.userLevel kind lin)).isSome = true :=
    List.find?_isSome.mpr ⟨r, hr, (permits_iff s kind lin r).mpr hmaps⟩
  obtain ⟨r', hfind⟩ := Option.isSome_iff_exists.mp hsome
  refine ⟨r', List.mem_of_find?_eq_some hfind, (permits_iff s kind lin r').mp (List.find?_some hfind), ?_⟩
  rw [physAddr_paged hmode hpaging, hfind]
  rfl

theorem physAddrs_map {f : Nat → Nat} {ls : List Nat} (h : ∀ l ∈ ls, physAddr s kind l = some (f l)) :
    physAddrs s kind ls = some (ls.map f) := by
  induction ls with
  | nil => rfl
  | cons l ls ih =>
    rw [List.forall_mem_cons] at h
    simp only [physAddrs, h.1, ih h.2, List.map_cons]

theorem physAddrs_eq_none {ls : List Nat} {l : Nat} (hl : l ∈ ls) (hnone : physAddr s kind l = none) :
    physAddrs s kind ls = none := by
  induction ls with
  | nil => cases hl
  | cons l' ls ih =>
    obtain rfl | hl := List.mem_cons.mp hl
    · simp only [physAddrs, hnone]
    · rw [physAddrs, ih hl]
      cases physAddr s kind l' <;> rfl

theorem translateAddr_within_ok {ps : List Nat} (hnone : NoEntry s seg off n kind) (hin : Within s seg off n kind)
    (hphys : physAddrs s kind ((List.range n).map (linearOf s seg off)) = some ps) :
    translateAddr s seg off n kind = .ok ps := by
  rw [translateAddr_of_noEntry hnone hin.le_offsetBound, translateByTables, segmentCheck_within hin, linearAddr_eq, hphys]

theorem translateAddr_within_fault (hnone : NoEntry s seg off n kind) (hin : Within s seg off n kind)
    (hphys : physAddrs s kind ((List.range n).map (linearOf s seg off)) = none) :
    translateAddr s seg off n kind = .error .pageFault := by
  rw [translateAddr_of_noEntry hnone hin.le_offsetBound, translateByTables, segmentCheck_within hin, linearAddr_eq, hphys]

/-! ## The checks after Translate -/

theorem accessAddrs_of_error {v : ExcVector} (h : translateAddr s seg off n kind = .error v) :
    accessAddrs s seg off n kind = .error (.raise v) := by
  simp only [accessAddrs, h]

theorem accessAddrs_misaligned {ps : List Nat} (h : translateAddr s seg off n kind = .ok ps)
    (harmed : s.alignCheckArmed = true) (hoff : off.toNat % n ≠ 0) :
    accessAddrs s seg off n kind = .error (.raise .alignmentCheck) := by
  simp only [accessAddrs, h, harmed, bne_iff_ne.mpr hoff, Bool.and_self, if_true]

/-- After the alignment check come the refusals (R62, R68). -/
theorem accessAddrs_aligned {ps : List Nat} (h : translateAddr s seg off n kind = .ok ps)
    (haligned : s.alignCheckArmed = false ∨ off.toNat % n = 0) :
    accessAddrs s seg off n kind =
      if ps.any (inRanges s.devices) then .error (.refuse .deviceAccess)
      else if kind = .write && ps.any (inRanges s.text) then .error (.refuse .storeIntoText)
      else .ok ps := by
  have hpass : (s.alignCheckArmed && off.toNat % n != 0) = false := by
    obtain hoff | hmod := haligned
    · rw [hoff, Bool.false_and]
    · rw [hmod, bne_self_eq_false, Bool.and_false]
  simp only [accessAddrs, h, hpass, Bool.false_eq_true, if_false]

/-- An access raises what `Translate` answers, or 17 (R229). -/
theorem accessAddrs_raise_source {v : ExcVector} (h : accessAddrs s seg off n kind = .error (.raise v)) :
    translateAddr s seg off n kind = .error v ∨
      (v = .alignmentCheck ∧ s.alignCheckArmed = true ∧ off.toNat % n ≠ 0) := by
  cases htranslate : translateAddr s seg off n kind with
  | error u =>
    rw [accessAddrs_of_error htranslate] at h
    cases h
    exact .inl rfl
  | ok ps =>
    by_cases haligned : s.alignCheckArmed = false ∨ off.toNat % n = 0
    · rw [accessAddrs_aligned htranslate haligned] at h
      split at h
      · cases h
      · split at h <;> cases h
    · obtain ⟨harmed, hoff⟩ := not_or.mp haligned
      rw [accessAddrs_misaligned htranslate (Bool.not_eq_false _ ▸ harmed) hoff] at h
      cases h
      exact .inr ⟨rfl, Bool.not_eq_false _ ▸ harmed, hoff⟩

theorem alignCheckArmed_iff (s : State) :
    s.alignCheckArmed = true ↔ s.am = true ∧ (s.mode = .v86 ∨ (s.mode = .prot ∧ s.cpl = 3)) ∧
      (s.platform.acGate = .always ∨ s.eflags.getLsbD 18 = true) := by
  cases hgate : s.platform.acGate <;> simp [State.alignCheckArmed, State.ac, hgate, and_assoc]

/-! ## Real mode has no page failure (R57, R225) -/

theorem translateByTables_real (hreal : s.mode = .real) :
    translateByTables s seg off n kind = .ok ((List.range n).map (linearOf s seg off)) := by
  have hsegment : segmentCheck s seg off n kind = none := by simp only [segmentCheck, hreal]
  rw [translateByTables, hsegment, linearAddr_eq,
    physAddrs_map (f := id) fun l _ => physAddr_unpaged (.inl hreal) kind l, List.map_id]

theorem translateAddr_real_ne_pageFault (hreal : s.mode = .real) :
    translateAddr s seg off n kind ≠ .error .pageFault := by
  intro h
  rw [translateAddr] at h
  split at h
  · obtain hlimit | hlimit := limitException_cases seg <;> rw [hlimit] at h <;> cases h
  · split at h
    case h_1 => cases h
    case h_2 f hgiven =>
      have hpossible : f.possible s.mode seg = true := translateGiven_allowed hgiven
      cases f with
      | stack | generalProtection => cases h
      | page => simp [TranslateFailure.possible, hreal] at hpossible
    case h_3 =>
      rw [translateByTables_real hreal] at h
      cases h

end Access

/-! ## The obligations -/

/-- Settles O11: the bound, the segment's limit and rights, the page regions and the environment's failures, each by the
answer of `Translate`. -/
theorem translateFailures : Obligations.TranslateFailures := by
  intro s seg off n kind
  have hbeyond (h : offsetBound s.mode < off.toNat + n) :
      accessAddrs s seg off n kind = .error (.raise (limitException seg)) :=
    accessAddrs_of_error (translateAddr_beyond h)
  have hsegment {v : ExcVector} (hnone : NoEntry s seg off n kind) (hin : off.toNat + n ≤ offsetBound s.mode)
      (hcheck : segmentCheck s seg off n kind = some v) : accessAddrs s seg off n kind = .error (.raise v) := by
    refine accessAddrs_of_error ?_
    rw [translateAddr_of_noEntry hnone hin, translateByTables, hcheck]
  refine ⟨fun hmode h => ?offset16, fun hprot h => ?offset32, fun hprot hnone hlimit => ?limit,
    fun hprot hnone hlimit hdenied => ?rights, fun rs k hnone hin hmode hpaging hk hunmapped => ?page,
    fun f v hf hin => ?given⟩
  case offset16 =>
    refine hbeyond ?_
    obtain hmode | hmode := hmode <;> rwa [hmode]
  case offset32 => exact hbeyond (hprot ▸ h)
  case limit =>
    by_cases hbound : offsetBound s.mode < off.toNat + n
    · exact hbeyond hbound
    · exact hsegment hnone (Nat.not_lt.mp hbound) (segmentCheck_beyond hprot hlimit)
  case rights =>
    have hlt := (s.segs.get seg).limit.isLt
    have hbound : off.toNat + n ≤ offsetBound s.mode := by
      rw [hprot, offsetBound]
      omega
    refine hsegment hnone hbound (segmentCheck_denied hprot hlimit ?_)
    obtain ⟨rfl, hdenied⟩ | ⟨rfl, hdenied⟩ := hdenied <;> exact hdenied
  case page =>
    have hk : linearOf s seg off k ∈ (List.range n).map (linearOf s seg off) :=
      List.mem_map_of_mem (List.mem_range.mpr hk)
    exact accessAddrs_of_error
      (translateAddr_within_fault hnone hin (physAddrs_eq_none hk (physAddr_unmapped hmode hpaging hunmapped)))
  case given =>
    have hpossible : f.possible s.mode seg = true ∧ v = f.vector := by
      obtain ⟨rfl, hseg, rfl⟩ | ⟨rfl, hprot, rfl⟩ | ⟨rfl, hreal, rfl⟩ := hf
      · exact ⟨decide_eq_true hseg, rfl⟩
      · exact ⟨decide_eq_true hprot, rfl⟩
      · exact ⟨bne_iff_ne.mpr hreal, rfl⟩
    obtain ⟨hpossible, rfl⟩ := hpossible
    exact accessAddrs_of_error (translateAddr_given_fails (offsetBound_eq s.mode ▸ hin) hpossible)

/-- Settles O12: an access raises 17 only by its own check, whose condition is `alignCheckArmed_iff`. -/
theorem alignmentCheckArming : Obligations.AlignmentCheckArming := by
  intro s seg off n kind
  refine ⟨fun ps htranslate ham hmode hgate hoff => ?raises, fun hdisarmed hraise => ?never, fun hreal hraise => ?real⟩
  case raises =>
    exact accessAddrs_misaligned htranslate ((alignCheckArmed_iff s).mpr ⟨ham, hmode, hgate⟩) hoff
  case never =>
    obtain htranslate | ⟨-, harmed, hoff⟩ := accessAddrs_raise_source hraise
    · obtain h | h | h := translateAddr_error htranslate <;> cases h
    obtain ⟨ham, hmode, hgate⟩ := (alignCheckArmed_iff s).mp harmed
    obtain hreal | ⟨hprot, hcpl⟩ | hnoAm | haligned | ⟨heflags, hac⟩ := hdisarmed
    · simp [hreal] at hmode
    · simp [hprot, hcpl] at hmode
    · exact Bool.false_ne_true (hnoAm.symm.trans ham)
    · exact hoff haligned
    · simp only [heflags, hac, reduceCtorEq, Bool.false_eq_true, or_self] at hgate
  case real =>
    obtain htranslate | ⟨halign, -⟩ := accessAddrs_raise_source hraise
    · exact translateAddr_real_ne_pageFault hreal htranslate
    · cases halign

/-- With paging every byte has the address that a region which maps it gives (R225). -/
theorem translateAddr_paged {s : State} {seg : Seg} {off : DWord} {n : Nat} {kind : AccessKind} {rs : List PageRegion}
    (hnone : NoEntry s seg off n kind) (hin : Within s seg off n kind) (hmode : s.mode ≠ .real)
    (hpaging : s.paging = some rs) (hmapped : ∀ k, k < n → ∃ r ∈ rs, Maps s kind (linearOf s seg off k) r) :
    ∃ ps, translateAddr s seg off n kind = .ok ps ∧ ps.length = n ∧
      ∀ k, k < n → ∃ r ∈ rs, Maps s kind (linearOf s seg off k) r ∧
        ps[k]? = some (r.phys + (linearOf s seg off k - r.base)) := by
  have hphys (k : Nat) (hk : k < n) := physAddr_mapped hmode hpaging (hmapped k hk)
  have hall : ∀ l ∈ (List.range n).map (linearOf s seg off),
      physAddr s kind l = some ((physAddr s kind l).getD 0) := by
    intro l hl
    obtain ⟨k, hk, rfl⟩ := List.mem_map.mp hl
    obtain ⟨r, -, -, hr⟩ := hphys k (List.mem_range.mp hk)
    rw [hr, Option.getD_some]
  refine ⟨_, translateAddr_within_ok hnone hin (physAddrs_map hall), by simp, fun k hk => ?_⟩
  obtain ⟨r, hmem, hmaps, hr⟩ := hphys k hk
  exact ⟨r, hmem, hmaps, by simp [hk, hr]⟩

/-- Settles O13: what `Translate` answers in range, the environment's own answers, and the refusals in their order. -/
theorem accessAfterChecks : Obligations.AccessAfterChecks := by
  intro s seg off n kind
  refine ⟨fun hnone hin => ⟨fun hunpaged => ?unpaged, fun rs hmode hpaging => translateAddr_paged hnone hin hmode hpaging⟩,
    fun ps hlen hin => translateAddr_given_addrs (offsetBound_eq s.mode ▸ hin) hlen, fun ps htranslate haligned => ?checks⟩
  case unpaged =>
    rw [translateAddr_within_ok hnone hin (physAddrs_map (f := id) fun l _ => physAddr_unpaged hunpaged kind l),
      List.map_id]
  case checks =>
    rw [accessAddrs_aligned htranslate haligned]
    have hclear {rs : List AddrRange} (h : ∀ a ∈ ps, inRanges rs a = false) : ps.any (inRanges rs) = false := by
      simpa using h
    refine ⟨fun hdevice => ?device, fun hdevice hwrite htext => ?text, fun hdevice htext => ?passes⟩
    case device => rw [if_pos (List.any_eq_true.mpr hdevice)]
    case text => simp only [hclear hdevice, hwrite, List.any_eq_true.mpr htext, decide_true, Bool.and_self,
      Bool.false_eq_true, if_false, if_true]
    case passes =>
      by_cases hwrite : kind = .write
      · simp only [hclear hdevice, hclear (htext hwrite), Bool.and_false, Bool.false_eq_true, if_false]
      · simp only [hclear hdevice, hwrite, decide_false, Bool.false_and, Bool.false_eq_true, if_false]

end Sys2Proof.Machine
end

section
/-! PROOFS. What a read answers and a write stores (20_memory.md R54 to R58), and a load after a store (R65). -/

namespace Sys2Proof.Machine

open Sys2Proof

/-! ## Reads -/

/-- A read whose access passes its checks answers a number whose byte k is the byte at the k-th address (R54, R58). -/
theorem memRead_bytes {s : State} {seg : Seg} {off : DWord} {n : Nat} {ps : List Nat}
    (h : accessAddrs s seg off n .read = .ok ps) :
    ∃ v, memRead s seg off n = .ok v ∧ v < 256 ^ n ∧
      ∀ k a, ps[k]? = some a → BitVec.ofNat 8 (v >>> (8 * k)) = s.mem.read a := by
  obtain ⟨-, hlen, -⟩ := accessAddrs_ok h
  have hlenBytes : (s.mem.readList ps).length = n := by rw [Memory.readList, List.length_map, hlen]
  refine ⟨leValue (s.mem.readList ps), by simp only [memRead, h], hlenBytes ▸ leValue_lt _, fun k a hk => ?_⟩
  obtain ⟨hlt, rfl⟩ := List.getElem?_eq_some_iff.mp hk
  rw [leValue_byte _ k (by rwa [hlenBytes, ← hlen])]
  exact List.getElem_map _

/-- Settles O8: the length by the checks, the bytes by the read. -/
theorem readIsLittleEndian : Obligations.ReadIsLittleEndian := by
  intro s seg off n ps h
  obtain ⟨-, hlen, -⟩ := accessAddrs_ok h
  exact ⟨hlen, memRead_bytes h⟩

/-- A field of a word that holds a number is that field of the number. -/
theorem extractLsb'_ofNat {w v : Nat} (hv : v < 2 ^ w) (start len : Nat) :
    (BitVec.ofNat w v).extractLsb' start len = BitVec.ofNat len (v >>> start) := by
  rw [BitVec.extractLsb', BitVec.toNat_ofNat, Nat.mod_eq_of_lt hv]

/-- A 64-bit source operand in memory (R56). -/
theorem src64_mem_bytes {p : Prefixes} {s : State} {m : MemOp} {ps : List Nat}
    (h : accessAddrs s (segmentOf p m) (offsetOf s m) 8 .read = .ok ps) :
    ∃ v : QWord, src64 p s (.mem m) = .ok v ∧
      ∀ k a, ps[k]? = some a → v.extractLsb' (8 * k) 8 = s.mem.read a := by
  obtain ⟨v, hread, hlt, hbytes⟩ := memRead_bytes h
  refine ⟨BitVec.ofNat 64 v, by rw [src64, hread]; rfl, fun k a hk => ?_⟩
  rw [extractLsb'_ofNat hlt, hbytes k a hk]

/-- A 32-bit source operand in memory (R56). -/
theorem src32_mem_bytes {p : Prefixes} {s : State} {m : MemOp} {ps : List Nat}
    (h : accessAddrs s (segmentOf p m) (offsetOf s m) 4 .read = .ok ps) :
    ∃ v : DWord, src32 p s (.mem m) = .ok v ∧
      ∀ k a, ps[k]? = some a → v.extractLsb' (8 * k) 8 = s.mem.read a := by
  obtain ⟨v, hread, hlt, hbytes⟩ := memRead_bytes h
  refine ⟨BitVec.ofNat 32 v, by rw [src32, hread]; rfl, fun k a hk => ?_⟩
  rw [extractLsb'_ofNat hlt, hbytes k a hk]

/-- Settles O9: the two widths of a source operand. -/
theorem memorySourceBytes : Obligations.MemorySourceBytes :=
  fun _ _ _ _ => ⟨src64_mem_bytes, src32_mem_bytes⟩

/-! ## Writes -/

/-- Settles O10: the bytes by `memWrite_stores`, the canonical form by `memWrite_ok`. -/
theorem writeStoresBytes : Obligations.WriteStoresBytes := by
  intro s seg off n v ps h
  obtain ⟨-, hlen, -⟩ := accessAddrs_ok h
  obtain ⟨m, hwrite, hother, hbytes⟩ := memWrite_stores h v
  obtain ⟨-, -, -, -, hwf⟩ := memWrite_ok hwrite
  exact ⟨hlen, m, hwrite, hother, hbytes, hwf⟩

/-! ## A load after a store -/

/-- A quadword is its eight bytes. -/
theorem qword_ext_bytes {v w : QWord} (h : ∀ k, k < 8 → v.extractLsb' (8 * k) 8 = w.extractLsb' (8 * k) 8) : v = w := by
  ext i hi
  have hbit : (v.extractLsb' (8 * (i / 8)) 8).getLsbD (i % 8) = (w.extractLsb' (8 * (i / 8)) 8).getLsbD (i % 8) := by
    rw [h (i / 8) (by omega)]
  simpa [BitVec.getLsbD_extractLsb', Nat.mod_lt, Nat.div_add_mod, hi] using hbit

/-- A MOVQ load whose operand is readable completes with its value in the register (R183). -/
theorem exec_movqLoad_ready {p : Prefixes} {r : MmReg} {src : RM MmReg} {s : State} {v : QWord} (hready : Ready p s)
    (hsrc : src64 p s src = .ok v) : ∃ t, exec (.movqLoad p r src) s = .next t ∧ t.mm r = v := by
  obtain ⟨hmm, -⟩ := State.wroteMm s r v (lenRM p src)
  exact ⟨_, packedOp_ready (f := fun _ b => b) hready hsrc, hmm⟩

/-- What the load needs of the state after the store: the system and the operand as before, and the stored bytes. -/
theorem exec_movqStore_mem {p : Prefixes} {m : MemOp} {r : MmReg} {s : State} {ps : List Nat} (hready : Ready p s)
    (hwrite : accessAddrs s (segmentOf p m) (offsetOf s m) 8 .write = .ok ps) (hnd : ps.Nodup) :
    ∃ t, exec (.movqStore p (.mem m) r) s = .next t ∧ SystemFrame s t ∧ Ready p t ∧ offsetOf t m = offsetOf s m ∧
      ∀ k a, ps[k]? = some a → t.mem.read a = (s.mm r).extractLsb' (8 * k) 8 := by
  obtain ⟨-, -, -, hmemory⟩ := movqStoreCopies p r m r s
  obtain ⟨mem', hstore, -, hbytes⟩ := hmemory hready ps hwrite
  exact ⟨_, hstore, systemFrame_of_eq rfl, hready, rfl, hbytes hnd⟩

/-- Settles O14: the store leaves the checks of the operand as they are, and the load finds each byte where the store put
it. -/
theorem loadSeesStore : Obligations.LoadSeesStore := by
  intro p m r r' s ps hready hwrite hread hnd
  obtain ⟨t, hstore, hframe, hready', hoffset, hstored⟩ := exec_movqStore_mem (r := r) hready hwrite hnd
  have hread' : accessAddrs t (segmentOf p m) (offsetOf t m) 8 .read = .ok ps := by
    rw [accessAddrs_congr hframe, hoffset, hread]
  obtain ⟨v, hsrc, hloaded⟩ := src64_mem_bytes hread'
  obtain ⟨-, hlen, -⟩ := accessAddrs_ok hread
  have hv : v = s.mm r := by
    refine qword_ext_bytes fun k hk => ?_
    have haddr : ps[k]? = some (ps[k]'(hlen ▸ hk)) := List.getElem?_eq_getElem _
    rw [hloaded k _ haddr, hstored k _ haddr]
  obtain ⟨u, hload, hmm⟩ := exec_movqLoad_ready (r := r') hready' hsrc
  exact ⟨t, u, hstore, hload, hmm.trans hv⟩

end Sys2Proof.Machine
end

section
/-! PROOFS. What each step leaves of memory, of the program text and of an exception that the environment has
(20_memory.md R50, R55, R68; 60_exceptions.md R232, R233): one lemma says what an instruction does to memory and control,
one what a sample instruction does, and the frame, the text and the invariant follow. -/

namespace Sys2Proof.Machine

open Sys2Proof

/-! ## What an instruction does to memory and control -/

theorem memWrite_ferr (s : State) (b : Bool) (seg : Seg) (off : DWord) (n v : Nat) :
    memWrite { s with ferr := b } seg off n v = memWrite s seg off n v := by
  simp only [memWrite, accessAddrs_congr (systemFrame_of_eq rfl : SystemFrame s { s with ferr := b })]

/-- The instruction did not complete, and an exception that it handed to the environment names its pc (R232). -/
def LeftAtPc (s t : State) : Prop :=
  LeftProgram s t ∧ ∀ e, t.control = .environment e → e.pc = s.pc

/-- `mem` is memory after the store of an instruction to its destination operand (R50, R55). -/
def StoredBy (i : Instr) (s : State) (mem : Memory) : Prop :=
  ∃ m n v, i.access = some (m, n, .write) ∧ memWrite s (segmentOf i.pfx m) (offsetOf s m) n v = .ok mem

/-- What an instruction can do to memory and control: it leaves the program at its pc, with memory as it was, or it
completes, with memory as it was or after its store. -/
def MemOutcome (i : Instr) (s t : State) : Prop :=
  LeftAtPc s t ∨ t.control = s.control ∧ (t.mem = s.mem ∨ StoredBy i s t.mem)

theorem leftAtPc_raise (s : State) (b : Bool) (v : ExcVector) : LeftAtPc s (State.raise { s with ferr := b } v) := by
  refine ⟨(leftProgram_raise { s with ferr := b } v).of_ferr, fun e he => ?_⟩
  cases he
  rfl

theorem LeftAtPc.mem_eq {s t : State} (h : LeftAtPc s t) : t.mem = s.mem := by
  obtain ⟨⟨c, -, ht⟩, -⟩ := h
  rw [ht]

theorem memOutcome_of_eq {i : Instr} {s t : State} (hctl : t.control = s.control) (hmem : t.mem = s.mem) :
    MemOutcome i s t :=
  .inr ⟨hctl, .inl hmem⟩

/-- What the check raises names the pc; else the body runs, in the state as it was but for FERR# (R226, R228). -/
theorem mmxCheck_memOutcome {i : Instr} {p : Prefixes} {s t : State} {k : State → Result}
    (h : mmxCheck p s k = .next t) (hran : ∀ b, k { s with ferr := b } = .next t → MemOutcome i s t) :
    MemOutcome i s t := by
  obtain ⟨-, hk⟩ | ⟨-, -, -, hk⟩ | ⟨v, rfl, -⟩ | ⟨-, c, rfl, hc⟩ := mmxCheck_next h
  · exact hran s.ferr hk
  · exact hran true hk
  · exact .inl (leftAtPc_raise s s.ferr v)
  · obtain rfl | ⟨n, rfl⟩ | rfl := hc
    · exact .inl (leftAtPc_raise s true .floatingPoint)
    · exact .inl (leftAtPc_raise s true (.external n))
    · exact .inl ⟨⟨.ferrWait, nofun, rfl⟩, nofun⟩

/-- What the operand's access raises names the pc too (R232). -/
theorem mmxCheck_withAccess_memOutcome {α : Type} {i : Instr} {p : Prefixes} {s t : State} {a : State → Except Stop α}
    {k : State → α → Result} (h : mmxCheck p s (fun s => withAccess s (a s) (k s)) = .next t)
    (hran : ∀ b v, a { s with ferr := b } = .ok v → k { s with ferr := b } v = .next t → MemOutcome i s t) :
    MemOutcome i s t := by
  refine mmxCheck_memOutcome h fun b haccess => ?_
  obtain ⟨v, hv, hk⟩ | ⟨v, -, rfl⟩ := withAccess_next haccess
  · exact hran b v hv hk
  · exact .inl (leftAtPc_raise s b v)

/-- A store to memory stores to the operand that `Instr.access` names. -/
theorem memOutcome_of_store {i : Instr} {s t : State} {b : Bool} {m : MemOp} {n v : Nat}
    (haccess : i.access = some (m, n, .write)) (hctl : t.control = s.control)
    (hwrite : memWrite { s with ferr := b } (segmentOf i.pfx m) (offsetOf s m) n v = .ok t.mem) : MemOutcome i s t :=
  .inr ⟨hctl, .inr ⟨m, n, v, haccess, memWrite_ferr s b _ _ _ _ ▸ hwrite⟩⟩

theorem execMovdStore_memOutcome {p : Prefixes} {dst : RM Gpr} {src : MmReg} {s t : State}
    (h : execMovdStore p dst src s = .next t) : MemOutcome (.movdStore p dst src) s t := by
  refine mmxCheck_withAccess_memOutcome h fun b u hu ht => ?_
  cases ht
  cases dst with
  | reg r =>
    cases hu
    exact memOutcome_of_eq rfl rfl
  | mem m =>
    obtain ⟨mem, hmem, rfl⟩ := except_map_eq_ok hu
    exact memOutcome_of_store rfl rfl hmem

theorem execMovqStore_memOutcome {p : Prefixes} {dst : RM MmReg} {src : MmReg} {s t : State}
    (h : execMovqStore p dst src s = .next t) : MemOutcome (.movqStore p dst src) s t := by
  refine mmxCheck_withAccess_memOutcome h fun b u hu ht => ?_
  cases ht
  cases dst with
  | reg r =>
    cases hu
    exact memOutcome_of_eq rfl rfl
  | mem m =>
    obtain ⟨mem, hmem, rfl⟩ := except_map_eq_ok hu
    exact memOutcome_of_store rfl rfl hmem

/-- Of the shapes of an instruction only the two stores write memory. -/
theorem exec_memOutcome {i : Instr} {s t : State} (h : exec i s = .next t) : MemOutcome i s t := by
  obtain ⟨dst, src, f, -, -, -, -, hpacked⟩ | ⟨dst, imm, f, -, -, -, -, himm⟩ | ⟨p, dst, src, rfl⟩ |
    ⟨p, dst, src, rfl⟩ | ⟨p, dst, src, rfl⟩ | ⟨p, rfl⟩ | ⟨p, rfl⟩ := exec_shape i
  -- `mmreg1, mmreg2/mem64`
  · refine mmxCheck_withAccess_memOutcome (hpacked s ▸ h) fun b v _ ht => ?_
    cases ht
    exact memOutcome_of_eq rfl rfl
  -- shift by immediate
  · refine mmxCheck_memOutcome (himm s ▸ h) fun b ht => ?_
    cases ht
    exact memOutcome_of_eq rfl rfl
  -- the MOVD load
  · refine mmxCheck_withAccess_memOutcome h fun b v _ ht => ?_
    cases ht
    exact memOutcome_of_eq rfl rfl
  -- the two stores
  · exact execMovdStore_memOutcome h
  · exact execMovqStore_memOutcome h
  -- EMMS
  · refine mmxCheck_memOutcome h fun b ht => ?_
    cases ht
    exact memOutcome_of_eq rfl rfl
  -- CPUID
  · cases h
    exact memOutcome_of_eq rfl rfl

/-! ## The memory frame -/

/-- The addresses of the store are those that `storedAddrs` names (R55). -/
theorem StoredBy.writeList {i : Instr} {s : State} {mem : Memory} (h : StoredBy i s mem) :
    ∃ n v, mem = s.mem.writeList ((storedAddrs i s).zip (leBytes n v)) ∧
      ∀ a, a ∉ storedAddrs i s → mem.read a = s.mem.read a := by
  obtain ⟨m, n, v, haccess, hwrite⟩ := h
  obtain ⟨ps, hps, hmem, hother, -⟩ := memWrite_ok hwrite
  have hstored : storedAddrs i s = ps := by simp only [storedAddrs, haccess, hps]
  exact ⟨n, v, hstored ▸ hmem, hstored ▸ hother⟩

/-- Settles O25: only a store that completes writes memory, and only at its own addresses. -/
theorem memoryFrame : Obligations.MemoryFrame := by
  intro i s t h
  obtain hleft | ⟨hctl, hmem | hstored⟩ := exec_memOutcome h
  · exact ⟨fun a _ => by rw [hleft.mem_eq], fun _ => hleft.mem_eq, fun _ _ => hleft.mem_eq⟩
  · exact ⟨fun a _ => by rw [hmem], fun _ => hmem, fun _ _ => hmem⟩
  · obtain ⟨n, v, hmem, hother⟩ := hstored.writeList
    exact ⟨hother, fun hnone => by rw [hmem, hnone]; rfl, fun hrun hne => (hne (hctl.trans hrun)).elim⟩

/-! ## The program text -/

/-- The ranges of the program text and the bytes in them are as before, and memory keeps its canonical form. -/
def TextKept (s t : State) : Prop :=
  t.text = s.text ∧ (∀ a, inRanges s.text a = true → t.mem.read a = s.mem.read a) ∧ (s.mem.wf → t.mem.wf)

theorem textKept_of_eq {s t : State} (htext : t.text = s.text) (hmem : t.mem = s.mem) : TextKept s t := by
  rw [TextKept, hmem]
  exact ⟨htext, fun _ _ => rfl, id⟩

/-- A write that passes its checks touches no byte of the text (R68). -/
theorem textKept_of_memWrite {s t : State} {seg : Seg} {off : DWord} {n v : Nat} (htext : t.text = s.text)
    (hwrite : memWrite s seg off n v = .ok t.mem) : TextKept s t := by
  obtain ⟨ps, hps, -, hother, hwf⟩ := memWrite_ok hwrite
  obtain ⟨-, -, -, -, hnotext⟩ := accessAddrs_ok hps
  refine ⟨htext, fun a ha => hother a fun hmem => ?_, hwf⟩
  exact Bool.false_ne_true ((hnotext rfl a hmem).symm.trans ha)

theorem exec_textKept {i : Instr} {s t : State} (h : exec i s = .next t) : TextKept s t := by
  obtain ⟨-, -, -, -, -, -, -, -, -, htext, -⟩ := exec_systemFrame h
  obtain hleft | ⟨-, hmem | ⟨m, n, v, -, hwrite⟩⟩ := exec_memOutcome h
  · exact textKept_of_eq htext hleft.mem_eq
  · exact textKept_of_eq htext hmem
  · exact textKept_of_memWrite htext hwrite

/-! ## The sample instructions and the environment -/

theorem push32_next {s t : State} {v : DWord} {n : Nat} (h : push32 v n s = .next t) :
    (∃ v, t = s.raise v) ∨ t.control = s.control ∧ TextKept s t := by
  obtain ⟨m, hm, ht⟩ | ⟨u, -, rfl⟩ := withAccess_next h
  · cases ht
    exact .inr ⟨rfl, textKept_of_memWrite rfl hm⟩
  · exact .inl ⟨u, rfl⟩

/-- What a sample instruction does to memory and control: it raises at its pc, or control stays and memory changes at most
by a write that passed its checks (R214). -/
theorem execHost_next {i : HostInstr} {s t : State} (h : execHost i s = .next t) :
    (∃ v, t = s.raise v) ∨ t.control = s.control ∧ TextKept s t := by
  cases i
  case pushfd | pushEax => exact push32_next h
  case popEax | popfd =>
    obtain ⟨v, -, ht⟩ | ⟨u, -, rfl⟩ := withAccess_next h
    · cases ht
      exact .inr ⟨rfl, textKept_of_eq rfl rfl⟩
    · exact .inl ⟨u, rfl⟩
  case jz | jnz =>
    cases h
    split <;> exact .inr ⟨rfl, textKept_of_eq rfl rfl⟩
  case movEbxEax | movEax | xorEax | cmpEaxEbx | testEdx =>
    cases h
    exact .inr ⟨rfl, textKept_of_eq rfl rfl⟩

theorem execHost_textKept {i : HostInstr} {s t : State} (h : execHost i s = .next t) : TextKept s t := by
  obtain ⟨v, rfl⟩ | ⟨-, hkept⟩ := execHost_next h
  · exact textKept_of_eq rfl rfl
  · exact hkept

/-- The interrupt-7 handler gives the program control and writes no memory (R241). -/
theorem int7Handler_control_textKept {s t : State} {tasks : TaskTable} {e : ExcOutcome}
    (h : s.int7Handler tasks e = some t) : t.control = .running ∧ TextKept s t := by
  unfold State.int7Handler at h
  simp only at h
  split at h <;> cases h
  exact ⟨rfl, textKept_of_eq rfl rfl⟩

/-- An emulated instruction finds the text and memory of the state in which it is emulated (R233). -/
theorem emulate_textKept {s t : State} {e : ExcOutcome} (h : s.emulate e = .next t) : TextKept s t := by
  obtain ⟨i, u, hexec, rfl⟩ := emulate_next h
  have hkept : TextKept (s.clearEm.returnFromHandler e) u := exec_textKept hexec
  exact hkept

theorem environmentStep_textKept {s t : State} {e : ExcOutcome} (h : environmentStep e s = .next t) : TextKept s t := by
  obtain ⟨-, tasks, hint7⟩ | ⟨-, hemu⟩ := environmentStep_next h
  · exact (int7Handler_control_textKept hint7).2
  · exact emulate_textKept hemu

theorem step_textKept {s t : State} (h : step s = .next t) : TextKept s t := by
  obtain ⟨i, hexec⟩ | ⟨i, hhost⟩ | ⟨e, -, henv⟩ := step_next h
  · exact exec_textKept hexec
  · exact execHost_textKept hhost
  · exact environmentStep_textKept henv

/-- Settles O59: every source of a next state writes memory at most by a write that passed its checks. -/
theorem programTextNeverChanges : Obligations.ProgramTextNeverChanges := by
  intro s t h
  obtain ⟨htext, hbytes, -⟩ := step_textKept h
  exact ⟨htext, hbytes⟩

/-! ## The invariant -/

/-- An exception that the environment has to handle names the pc (R232). -/
def NamesPc (t : State) : Prop := ∀ e, t.control = .environment e → e.pc = t.pc

theorem namesPc_of_running {t : State} (h : t.control = .running) : NamesPc t := by
  intro e he
  cases h.symm.trans he

theorem LeftAtPc.namesPc {s t : State} (h : LeftAtPc s t) : NamesPc t := by
  obtain ⟨⟨c, -, ht⟩, hpc⟩ := h
  have hkeeps : t.pc = s.pc := by rw [ht]
  exact fun e he => (hpc e he).trans hkeeps.symm

theorem exec_namesPc {i : Instr} {s t : State} (hrun : s.control = .running) (h : exec i s = .next t) : NamesPc t := by
  obtain hleft | ⟨hctl, -⟩ := exec_memOutcome h
  · exact hleft.namesPc
  · exact namesPc_of_running (hctl.trans hrun)

theorem execHost_namesPc {i : HostInstr} {s t : State} (hrun : s.control = .running) (h : execHost i s = .next t) :
    NamesPc t := by
  obtain ⟨v, rfl⟩ | ⟨hctl, -⟩ := execHost_next h
  · intro e he
    cases he
    rfl
  · exact namesPc_of_running (hctl.trans hrun)

theorem environmentStep_namesPc {s t : State} {e : ExcOutcome} (h : environmentStep e s = .next t) : NamesPc t := by
  obtain ⟨-, tasks, hint7⟩ | ⟨-, hemu⟩ := environmentStep_next h
  · exact namesPc_of_running (int7Handler_control_textKept hint7).1
  · obtain ⟨i, u, hexec, rfl⟩ := emulate_next hemu
    have hpc : NamesPc u := exec_namesPc (State.returnFromHandler_control _ _) hexec
    exact hpc

/-- An instruction runs only where the program has control, so that what it raises names its pc. -/
theorem step_namesPc {s t : State} (h : step s = .next t) : NamesPc t := by
  cases hctl : s.control with
  | running =>
    obtain ⟨i, hexec⟩ | ⟨i, hhost⟩ | ⟨e, henv, -⟩ := step_next h
    · exact exec_namesPc hctl hexec
    · exact execHost_namesPc hctl hhost
    · cases hctl.symm.trans henv
  | environment e => exact environmentStep_namesPc (step_of_environment hctl ▸ h)
  | ferrWait =>
    simp only [step, hctl] at h
    cases h

/-- Settles O57: the canonical form by the writes of a step, mode and privilege level by its frame, the pc of an exception
by `step_namesPc`. -/
theorem stepKeepsInvariant : Obligations.StepKeepsInvariant := by
  rintro s t ⟨hwf, hv86, -⟩ h
  obtain ⟨-, -, hkeepsWf⟩ := step_textKept h
  obtain ⟨hmode, hcpl, -⟩ := step_configFrame h
  exact ⟨hkeepsWf hwf, fun ht => hcpl.trans (hv86 (hmode.symm.trans ht)), step_namesPc h⟩

end Sys2Proof.Machine
end

section
/-! PROOFS. The fields and the parsers of the decoder, each with the bytes it reads (30_encoding.md R83 to R91): a parser
answers a value exactly where the encoder's bytes of that value stand. -/

namespace Sys2Proof

/-! ## Field values -/

@[simp] theorem Gpr.bits_ofBits (b : BitVec 3) : (Gpr.ofBits b).bits = b := by
  revert b
  decide

@[simp] theorem Gpr.ofBits_bits (r : Gpr) : Gpr.ofBits r.bits = r := by
  cases r <;> rfl

@[simp] theorem MmReg.bits_ofBits (b : BitVec 3) : (MmReg.ofBits b).bits = b := by
  revert b
  decide

@[simp] theorem MmReg.ofBits_bits (r : MmReg) : MmReg.ofBits r.bits = r := by
  cases r <;> rfl

@[simp] theorem Base16.bits_ofBits (b : BitVec 3) : (Base16.ofBits b).bits = b := by
  revert b
  decide

@[simp] theorem Base16.ofBits_bits (r : Base16) : Base16.ofBits r.bits = r := by
  cases r <;> rfl

@[simp] theorem sibIndexBits_sibIndex (b : BitVec 3) : sibIndexBits (sibIndex b) = b := by
  revert b
  decide

/-- 100b is no index (R85). -/
theorem sibIndex_ne_esp (b : BitVec 3) : sibIndex b ≠ some .esp := by
  revert b
  decide

theorem sibIndex_sibIndexBits {idx : Option Gpr} (h : idx ≠ some .esp) : sibIndex (sibIndexBits idx) = idx := by
  cases idx with
  | none => rfl
  | some r =>
    cases r
    case esp => exact (h rfl).elim
    all_goals rfl

@[simp] theorem modField_packModRM (m : BitVec 2) (r x : BitVec 3) : modField (packModRM m r x) = m := by
  revert m r x
  decide

@[simp] theorem regField_packModRM (m : BitVec 2) (r x : BitVec 3) : regField (packModRM m r x) = r := by
  revert m r x
  decide

@[simp] theorem rmField_packModRM (m : BitVec 2) (r x : BitVec 3) : rmField (packModRM m r x) = x := by
  revert m r x
  decide

/-- The three fields are the whole byte (R83). -/
@[simp] theorem packModRM_fields (b : Byte) : packModRM (modField b) (regField b) (rmField b) = b := by
  revert b
  decide

/-! ## Bytes and displacements -/

theorem Parse.map_eq_ok {α β : Type} {f : α → β} {x : Parse α} {b : β} {rest : List Byte} :
    Parse.map f x = .ok (b, rest) ↔ ∃ a, x = .ok (a, rest) ∧ f a = b := by
  rcases x with e | ⟨a, bs⟩
  · simp [Parse.map]
  · simp only [Parse.map, Except.ok.injEq, Prod.mk.injEq]
    exact ⟨fun ⟨hf, hbs⟩ => ⟨a, ⟨rfl, hbs⟩, hf⟩, fun ⟨_, ⟨ha, hbs⟩, hf⟩ => ⟨ha ▸ hf, hbs⟩⟩

theorem takeByte_eq_ok {bs rest : List Byte} {b : Byte} : takeByte bs = .ok (b, rest) ↔ bs = b :: rest := by
  cases bs <;> simp [takeByte]

theorem wordBytes_append (b1 b0 : Byte) : wordBytes (b1 ++ b0) = [b0, b1] :=
  congrArg₂ (fun x y => [x, y]) (Machine.extractLsb'_append_low b1 b0) BitVec.extractLsb'_append_eq_left

theorem append_of_wordBytes (w : Word) : w.extractLsb' 8 8 ++ w.extractLsb' 0 8 = w :=
  (BitVec.extractLsb'_append_extractLsb'_eq_extractLsb' rfl).trans BitVec.extractLsb'_eq_self

/-- The bytes of a word stand least significant first (R86). -/
theorem takeWord_eq_ok {bs rest : List Byte} {w : Word} : takeWord bs = .ok (w, rest) ↔ bs = wordBytes w ++ rest := by
  constructor
  · intro h
    unfold takeWord at h
    split at h
    next b0 b1 tail =>
      cases h
      rw [wordBytes_append]
      rfl
    next => cases h
  · rintro rfl
    simp only [takeWord, wordBytes, List.cons_append, List.nil_append, append_of_wordBytes]

theorem dwordBytes_append (b3 b2 b1 b0 : Byte) : dwordBytes (b3 ++ b2 ++ b1 ++ b0) = [b0, b1, b2, b3] := by
  have h0 : (b3 ++ b2 ++ b1 ++ b0).extractLsb' 0 8 = b0 := Machine.extractLsb'_append_low (b3 ++ b2 ++ b1) b0
  have h1 : (b3 ++ b2 ++ b1 ++ b0).extractLsb' 8 8 = b1 :=
    (Machine.extractLsb'_append_high (b3 ++ b2 ++ b1) b0 8 8 (by decide)).trans
      (Machine.extractLsb'_append_low (b3 ++ b2) b1)
  have h23 (start : Nat) : (b3 ++ b2 ++ b1 ++ b0).extractLsb' (start + 8 + 8) 8 = (b3 ++ b2).extractLsb' start 8 :=
    (Machine.extractLsb'_append_high (b3 ++ b2 ++ b1) b0 (start + 8 + 8) 8 (by omega)).trans
      (Machine.extractLsb'_append_high (b3 ++ b2) b1 (start + 8) 8 (by omega))
  have h2 : (b3 ++ b2 ++ b1 ++ b0).extractLsb' 16 8 = b2 := (h23 0).trans (Machine.extractLsb'_append_low b3 b2)
  have h3 : (b3 ++ b2 ++ b1 ++ b0).extractLsb' 24 8 = b3 := (h23 8).trans BitVec.extractLsb'_append_eq_left
  simp only [dwordBytes, h0, h1, h2, h3]

theorem append_of_dwordBytes (w : DWord) :
    w.extractLsb' 24 8 ++ w.extractLsb' 16 8 ++ w.extractLsb' 8 8 ++ w.extractLsb' 0 8 = w := by
  have hhigh : w.extractLsb' 24 8 ++ w.extractLsb' 16 8 = w.extractLsb' 16 16 :=
    BitVec.extractLsb'_append_extractLsb'_eq_extractLsb' rfl
  have hmid : w.extractLsb' 16 16 ++ w.extractLsb' 8 8 = w.extractLsb' 8 24 :=
    BitVec.extractLsb'_append_extractLsb'_eq_extractLsb' rfl
  rw [hhigh, hmid]
  exact (BitVec.extractLsb'_append_extractLsb'_eq_extractLsb' rfl).trans BitVec.extractLsb'_eq_self

/-- The bytes of a doubleword stand least significant first (R86). -/
theorem takeDWord_eq_ok {bs rest : List Byte} {w : DWord} :
    takeDWord bs = .ok (w, rest) ↔ bs = dwordBytes w ++ rest := by
  constructor
  · intro h
    unfold takeDWord at h
    split at h
    next b0 b1 b2 b3 tail =>
      cases h
      rw [dwordBytes_append]
      rfl
    next => cases h
  · rintro rfl
    simp only [takeDWord, dwordBytes, List.cons_append, List.nil_append, append_of_dwordBytes]

/-- mod 11b is a register operand, so that a displacement is announced by 00b, 01b or 10b (R83). -/
theorem mod_cases {mod : BitVec 2} (hmod : mod ≠ 3) : mod = 0 ∨ mod = 1 ∨ mod = 2 := by
  revert mod
  decide

theorem encDisp32_mod_eq_zero {d : Disp32} : (encDisp32 d).1 = 0 ↔ d = .none := by
  cases d <;> simp [encDisp32]

theorem encDisp32_mod_ne_three (d : Disp32) : (encDisp32 d).1 ≠ 3 := by
  cases d <;> simp [encDisp32]

theorem takeDisp32_eq_ok {mod : BitVec 2} {bs rest : List Byte} {d : Disp32} (hmod : mod ≠ 3) :
    takeDisp32 mod bs = .ok (d, rest) ↔ mod = (encDisp32 d).1 ∧ bs = (encDisp32 d).2 ++ rest := by
  obtain rfl | rfl | rfl := mod_cases hmod <;> cases d <;>
    simp [takeDisp32, encDisp32, Parse.map_eq_ok, takeByte_eq_ok, takeDWord_eq_ok]

theorem encDisp16_mod_eq_zero {d : Disp16} : (encDisp16 d).1 = 0 ↔ d = .none := by
  cases d <;> simp [encDisp16]

theorem encDisp16_mod_ne_three (d : Disp16) : (encDisp16 d).1 ≠ 3 := by
  cases d <;> simp [encDisp16]

theorem takeDisp16_eq_ok {mod : BitVec 2} {bs rest : List Byte} {d : Disp16} (hmod : mod ≠ 3) :
    takeDisp16 mod bs = .ok (d, rest) ↔ mod = (encDisp16 d).1 ∧ bs = (encDisp16 d).2 ++ rest := by
  obtain rfl | rfl | rfl := mod_cases hmod <;> cases d <;>
    simp [takeDisp16, encDisp16, Parse.map_eq_ok, takeByte_eq_ok, takeWord_eq_ok]

/-! ## Memory operands -/

/-- rm 100b announces a SIB byte (R83). -/
theorem Gpr.bits_eq_four {r : Gpr} : r.bits = 4 ↔ r = .esp := by
  cases r <;> simp [Gpr.bits]

/-- rm or base 101b with mod 00b has no base register (R83, R85). -/
theorem Gpr.bits_eq_five {r : Gpr} : r.bits = 5 ↔ r = .ebp := by
  cases r <;> simp [Gpr.bits]

/-- rm 110b with mod 00b has no base register (R83). -/
theorem Base16.bits_eq_six {b : Base16} : b.bits = 6 ↔ b = .bp := by
  cases b <;> simp [Base16.bits]

theorem Mem32.wf_base {r : Gpr} {d : Disp32} :
    (Mem32.base r d).wf = true ↔ r.bits ≠ 4 ∧ ¬(r.bits = 5 ∧ (encDisp32 d).1 = 0) := by
  rw [ne_eq, Gpr.bits_eq_four, Gpr.bits_eq_five, encDisp32_mod_eq_zero]
  simp [Mem32.wf, imp_iff_not_or]

theorem Mem32.wf_sib (ss : BitVec 2) {idx : Option Gpr} {b : Gpr} {d : Disp32} :
    (Mem32.sib ss idx b d).wf = true ↔ idx ≠ some .esp ∧ ¬(b.bits = 5 ∧ (encDisp32 d).1 = 0) := by
  rw [Gpr.bits_eq_five, encDisp32_mod_eq_zero]
  simp [Mem32.wf, imp_iff_not_or]

theorem Mem32.wf_sibAbs (ss : BitVec 2) {idx : Option Gpr} (d : DWord) :
    (Mem32.sibAbs ss idx d).wf = true ↔ idx ≠ some .esp := by
  simp [Mem32.wf]

theorem Mem16.wf_based {b : Base16} {d : Disp16} :
    (Mem16.based b d).wf = true ↔ ¬(b.bits = 6 ∧ (encDisp16 d).1 = 0) := by
  rw [Base16.bits_eq_six, encDisp16_mod_eq_zero]
  simp [Mem16.wf, imp_iff_not_or]

/-- After a ModRM byte with the fields `mod` and `rm` the bytes `bs` are those of the operand, then `rest` (R83, R85). -/
def MemOp.EncodedBy (m : MemOp) (mod : BitVec 2) (rm : BitVec 3) (bs rest : List Byte) : Prop :=
  m.wf = true ∧ mod = (encMem m).1 ∧ rm = (encMem m).2.1 ∧ bs = (encMem m).2.2 ++ rest

theorem encodedBy_of_takeSib {mod : BitVec 2} {bs rest : List Byte} {m : Mem32} (hmod : mod ≠ 3)
    (h : takeSib mod bs = .ok (m, rest)) : (MemOp.a32 m).EncodedBy mod 4 bs rest := by
  cases bs with
  | nil => cases h
  | cons sib bs =>
    rw [takeSib] at h
    split at h
    next hnobase =>
      obtain ⟨hbase, rfl⟩ := hnobase
      obtain ⟨d, hd, rfl⟩ := Parse.map_eq_ok.mp h
      refine ⟨(Mem32.wf_sibAbs (modField sib) d).mpr (sibIndex_ne_esp _), rfl, rfl, ?_⟩
      simp [encMem, takeDWord_eq_ok.mp hd, ← hbase]
    next hbase =>
      obtain ⟨d, hd, rfl⟩ := Parse.map_eq_ok.mp h
      obtain ⟨rfl, rfl⟩ := (takeDisp32_eq_ok hmod).mp hd
      refine ⟨(Mem32.wf_sib (modField sib)).mpr ⟨sibIndex_ne_esp _, by rwa [Gpr.bits_ofBits]⟩, rfl, rfl, ?_⟩
      simp [encMem]

theorem encodedBy_of_takeMem32 {mod : BitVec 2} {rm : BitVec 3} {bs rest : List Byte} {m : Mem32} (hmod : mod ≠ 3)
    (h : takeMem32 mod rm bs = .ok (m, rest)) : (MemOp.a32 m).EncodedBy mod rm bs rest := by
  unfold takeMem32 at h
  split at h
  next hsib =>
    subst hsib
    exact encodedBy_of_takeSib hmod h
  next hsib =>
    split at h
    next hnobase =>
      obtain ⟨rfl, rfl⟩ := hnobase
      obtain ⟨d, hd, rfl⟩ := Parse.map_eq_ok.mp h
      exact ⟨rfl, rfl, rfl, takeDWord_eq_ok.mp hd⟩
    next hbase =>
      obtain ⟨d, hd, rfl⟩ := Parse.map_eq_ok.mp h
      obtain ⟨rfl, rfl⟩ := (takeDisp32_eq_ok hmod).mp hd
      refine ⟨Mem32.wf_base.mpr ?_, rfl, (Gpr.bits_ofBits rm).symm, rfl⟩
      rw [Gpr.bits_ofBits]
      exact ⟨hsib, hbase⟩

theorem encodedBy_of_takeMem16 {mod : BitVec 2} {rm : BitVec 3} {bs rest : List Byte} {m : Mem16} (hmod : mod ≠ 3)
    (h : takeMem16 mod rm bs = .ok (m, rest)) : (MemOp.a16 m).EncodedBy mod rm bs rest := by
  unfold takeMem16 at h
  split at h
  next hnobase =>
    obtain ⟨rfl, rfl⟩ := hnobase
    obtain ⟨d, hd, rfl⟩ := Parse.map_eq_ok.mp h
    exact ⟨rfl, rfl, rfl, takeWord_eq_ok.mp hd⟩
  next hbase =>
    obtain ⟨d, hd, rfl⟩ := Parse.map_eq_ok.mp h
    obtain ⟨rfl, rfl⟩ := (takeDisp16_eq_ok hmod).mp hd
    exact ⟨Mem16.wf_based.mpr (by rwa [Base16.bits_ofBits]), rfl, (Base16.bits_ofBits rm).symm, rfl⟩

theorem takeSib_sib {ss : BitVec 2} {idx : Option Gpr} {b : Gpr} {d : Disp32} (hidx : idx ≠ some .esp)
    (hbase : ¬(b.bits = 5 ∧ (encDisp32 d).1 = 0)) (rest : List Byte) :
    takeSib (encDisp32 d).1 (packModRM ss (sibIndexBits idx) b.bits :: ((encDisp32 d).2 ++ rest)) =
      .ok (.sib ss idx b d, rest) := by
  rw [takeSib, rmField_packModRM, if_neg hbase, Parse.map_eq_ok]
  exact ⟨d, (takeDisp32_eq_ok (encDisp32_mod_ne_three d)).mpr ⟨rfl, rfl⟩, by simp [sibIndex_sibIndexBits hidx]⟩

theorem takeSib_sibAbs {ss : BitVec 2} {idx : Option Gpr} {d : DWord} (hidx : idx ≠ some .esp) (rest : List Byte) :
    takeSib 0 (packModRM ss (sibIndexBits idx) 5 :: (dwordBytes d ++ rest)) = .ok (.sibAbs ss idx d, rest) := by
  rw [takeSib, rmField_packModRM, if_pos ⟨rfl, rfl⟩, Parse.map_eq_ok]
  exact ⟨d, takeDWord_eq_ok.mpr rfl, by simp [sibIndex_sibIndexBits hidx]⟩

/-- A memory operand with 32-bit addressing is read back from its bytes (R83, R85). -/
theorem takeMem32_encMem {m : Mem32} (hwf : m.wf = true) (rest : List Byte) :
    takeMem32 (encMem (.a32 m)).1 (encMem (.a32 m)).2.1 ((encMem (.a32 m)).2.2 ++ rest) = .ok (m, rest) := by
  cases m with
  | abs d =>
    show takeMem32 0 5 (dwordBytes d ++ rest) = _
    rw [takeMem32, if_neg (by decide), if_pos ⟨rfl, rfl⟩, Parse.map_eq_ok]
    exact ⟨d, takeDWord_eq_ok.mpr rfl, rfl⟩
  | base r d =>
    obtain ⟨hsib, hbase⟩ := Mem32.wf_base.mp hwf
    show takeMem32 (encDisp32 d).1 r.bits ((encDisp32 d).2 ++ rest) = _
    rw [takeMem32, if_neg hsib, if_neg hbase, Parse.map_eq_ok]
    exact ⟨d, (takeDisp32_eq_ok (encDisp32_mod_ne_three d)).mpr ⟨rfl, rfl⟩, by rw [Gpr.ofBits_bits]⟩
  | sib ss idx b d =>
    obtain ⟨hidx, hbase⟩ := (Mem32.wf_sib ss).mp hwf
    exact takeSib_sib hidx hbase rest
  | sibAbs ss idx d => exact takeSib_sibAbs ((Mem32.wf_sibAbs ss d).mp hwf) rest

/-- A memory operand with 16-bit addressing is read back from its bytes (R83). -/
theorem takeMem16_encMem {m : Mem16} (hwf : m.wf = true) (rest : List Byte) :
    takeMem16 (encMem (.a16 m)).1 (encMem (.a16 m)).2.1 ((encMem (.a16 m)).2.2 ++ rest) = .ok (m, rest) := by
  cases m with
  | abs d =>
    show takeMem16 0 6 (wordBytes d ++ rest) = _
    rw [takeMem16, if_pos ⟨rfl, rfl⟩, Parse.map_eq_ok]
    exact ⟨d, takeWord_eq_ok.mpr rfl, rfl⟩
  | based b d =>
    show takeMem16 (encDisp16 d).1 b.bits ((encDisp16 d).2 ++ rest) = _
    rw [takeMem16, if_neg (Mem16.wf_based.mp hwf), Parse.map_eq_ok]
    exact ⟨d, (takeDisp16_eq_ok (encDisp16_mod_ne_three d)).mpr ⟨rfl, rfl⟩, by rw [Base16.ofBits_bits]⟩

/-- mod 11b is no memory operand (R83). -/
theorem encMem_mod_ne_three (m : MemOp) : (encMem m).1 ≠ 3 := by
  have hzero : (0 : BitVec 2) ≠ 3 := by decide
  rcases m with m | m
  · cases m with
    | abs d => exact hzero
    | base r d => exact encDisp32_mod_ne_three d
    | sib ss idx b d => exact encDisp32_mod_ne_three d
    | sibAbs ss idx d => exact hzero
  · cases m with
    | abs d => exact hzero
    | based b d => exact encDisp16_mod_ne_three d

/-! ## ModRM -/

section ModRM

variable {R : Type} {bits : R → BitVec 3} {ofBits : BitVec 3 → R} {dflt : AddrSize} {p : Prefixes}

theorem takeRM_of_mod_eq {size : AddrSize} {m : Byte} (hmod : modField m = 3) (bs : List Byte) :
    takeRM ofBits size (m :: bs) = .ok ((regField m, .reg (ofBits (rmField m))), bs) :=
  if_pos hmod

theorem takeRM_of_mod_ne_32 {m : Byte} (hmod : modField m ≠ 3) (bs : List Byte) :
    takeRM ofBits .a32 (m :: bs) =
      Parse.map (fun x => (regField m, .mem (.a32 x))) (takeMem32 (modField m) (rmField m) bs) :=
  if_neg hmod

theorem takeRM_of_mod_ne_16 {m : Byte} (hmod : modField m ≠ 3) (bs : List Byte) :
    takeRM ofBits .a16 (m :: bs) =
      Parse.map (fun x => (regField m, .mem (.a16 x))) (takeMem16 (modField m) (rmField m) bs) :=
  if_neg hmod

theorem RM.wf_mem {m : MemOp} : (RM.mem (R := R) m).wf dflt p = true ↔ m.wf = true ∧ m.size = decodeSize dflt p := by
  simp [RM.wf, sizeInForce, decodeSize]

/-- A ModRM byte with mod other than 11b is followed by a memory operand of the address size (R83, R89). -/
theorem encodedBy_of_takeRM {size : AddrSize} {m : Byte} {bs rest : List Byte} {reg : BitVec 3} {x : RM R}
    (hmod : modField m ≠ 3) (h : takeRM ofBits size (m :: bs) = .ok ((reg, x), rest)) :
    ∃ mem : MemOp, x = .mem mem ∧ reg = regField m ∧ mem.size = size ∧
      mem.EncodedBy (modField m) (rmField m) bs rest := by
  cases size with
  | a32 =>
    obtain ⟨mem, hmem, hx⟩ := Parse.map_eq_ok.mp ((takeRM_of_mod_ne_32 hmod bs).symm.trans h)
    cases hx
    exact ⟨.a32 mem, rfl, rfl, rfl, encodedBy_of_takeMem32 hmod hmem⟩
  | a16 =>
    obtain ⟨mem, hmem, hx⟩ := Parse.map_eq_ok.mp ((takeRM_of_mod_ne_16 hmod bs).symm.trans h)
    cases hx
    exact ⟨.a16 mem, rfl, rfl, rfl, encodedBy_of_takeMem16 hmod hmem⟩

/-- The bytes that are read as an `r/m` operand are those of the operand, which has the address size in force (R83, R89). -/
theorem encRM_of_takeRM (hbits : ∀ b, bits (ofBits b) = b) {bs rest : List Byte} {reg : BitVec 3} {x : RM R}
    (h : takeRM ofBits (decodeSize dflt p) bs = .ok ((reg, x), rest)) :
    bs = encRM bits reg x ++ rest ∧ x.wf dflt p = true := by
  cases bs with
  | nil => cases h
  | cons m bs =>
    by_cases hmod : modField m = 3
    · cases (takeRM_of_mod_eq hmod bs).symm.trans h
      refine ⟨?_, rfl⟩
      rw [encRM, hbits, ← hmod, packModRM_fields]
      rfl
    · obtain ⟨mem, rfl, rfl, hsize, hwf, hm, hrm, rfl⟩ := encodedBy_of_takeRM hmod h
      refine ⟨?_, RM.wf_mem.mpr ⟨hwf, hsize⟩⟩
      rw [encRM, ← hm, ← hrm, packModRM_fields]
      rfl

/-- An `r/m` operand of the address size in force is read back from its bytes (R83, R89). -/
theorem takeRM_encRM (hofBits : ∀ r, ofBits (bits r) = r) {x : RM R} (hwf : x.wf dflt p = true) (reg : BitVec 3)
    (rest : List Byte) : takeRM ofBits (decodeSize dflt p) (encRM bits reg x ++ rest) = .ok ((reg, x), rest) := by
  cases x with
  | reg r =>
    refine (takeRM_of_mod_eq (modField_packModRM _ _ _) rest).trans ?_
    simp only [regField_packModRM, rmField_packModRM, hofBits]
  | mem m =>
    obtain ⟨hform, hsize⟩ := RM.wf_mem.mp hwf
    have hmod : modField (packModRM (encMem m).1 reg (encMem m).2.1) ≠ 3 := by
      rw [modField_packModRM]
      exact encMem_mod_ne_three m
    rw [← hsize]
    cases m with
    | a32 m =>
      refine (takeRM_of_mod_ne_32 hmod _).trans ?_
      simp only [modField_packModRM, regField_packModRM, rmField_packModRM]
      exact Parse.map_eq_ok.mpr ⟨m, takeMem32_encMem hform rest, rfl⟩
    | a16 m =>
      refine (takeRM_of_mod_ne_16 hmod _).trans ?_
      simp only [modField_packModRM, regField_packModRM, rmField_packModRM]
      exact Parse.map_eq_ok.mpr ⟨m, takeMem16_encMem hform rest, rfl⟩

end ModRM

/-! ## Prefixes -/

@[simp] theorem pfxOf_byte (x : Pfx) : pfxOf x.byte = some x := by
  rcases x with r | _ | _
  · cases r <;> rfl
  · rfl
  · rfl

theorem eq_byte_of_pfxOf {b : Byte} {x : Pfx} (h : pfxOf b = some x) : b = x.byte := by
  have hall : ∀ b, (pfxOf b).map Pfx.byte = none ∨ (pfxOf b).map Pfx.byte = some b := by decide
  simpa [h, eq_comm] using hall b

@[simp] theorem pfxRefused_byte (x : Pfx) : pfxRefused x.byte = false := by
  rcases x with r | _ | _
  · cases r <;> rfl
  · rfl
  · rfl

theorem Parse.map_map {α β γ : Type} (g : β → γ) (f : α → β) (x : Parse α) :
    Parse.map g (Parse.map f x) = Parse.map (fun a => g (f a)) x := by
  rcases x with e | ⟨a, bs⟩ <;> rfl

theorem Parse.map_id {α : Type} (x : Parse α) : Parse.map (fun a => a) x = x := by
  rcases x with e | ⟨a, bs⟩ <;> rfl

/-- A run of prefixes is read whatever follows it (R91). -/
theorem takePrefixes_map_byte (p : Prefixes) (bs : List Byte) :
    takePrefixes (p.map Pfx.byte ++ bs) = Parse.map (p ++ ·) (takePrefixes bs) := by
  induction p with
  | nil => exact (Parse.map_id _).symm
  | cons x p ih =>
    rw [List.map_cons, List.cons_append, takePrefixes, pfxRefused_byte, if_neg Bool.false_ne_true, pfxOf_byte, ih]
    exact Parse.map_map _ _ _

theorem takePrefixes_ok {bs rest : List Byte} {p : Prefixes} (h : takePrefixes bs = .ok (p, rest)) :
    bs = p.map Pfx.byte ++ rest := by
  induction bs generalizing p with
  | nil => cases h
  | cons b bs ih =>
    rw [takePrefixes] at h
    split at h
    next => cases h
    next =>
      split at h
      next x hx =>
        obtain ⟨q, hq, rfl⟩ := Parse.map_eq_ok.mp h
        rw [eq_byte_of_pfxOf hx, ih hq]
        rfl
      next =>
        cases h
        rfl

end Sys2Proof
end

section
/-! PROOFS. The decoder and the encoder are inverse (30_encoding.md R80 to R100). A fact about the rows of the opcode table
is proved once over each table; an instruction then goes through the lemma of its format. -/

namespace Sys2Proof

/-! ## The rows of the opcode table -/

theorem encode_f1Table : ∀ row ∈ f1Table, ∀ p dst src, encode (row.2 p dst src) = encF1 p row.1 dst src := by
  unfold f1Table
  repeat refine List.forall_mem_cons.mpr ⟨fun _ _ _ => rfl, ?_⟩
  exact List.forall_mem_nil _

theorem wf_f1Table : ∀ row ∈ f1Table, ∀ dflt p dst src,
    (row.2 p dst src).wf dflt = (src.wf dflt p && src.fits p) := by
  unfold f1Table
  repeat refine List.forall_mem_cons.mpr ⟨fun _ _ _ _ => rfl, ?_⟩
  exact List.forall_mem_nil _

theorem encode_shiftTable : ∀ row ∈ shiftTable, ∀ p dst imm,
    encode (row.2 p dst imm) = encF4 p row.1.1 row.1.2 dst imm := by
  unfold shiftTable
  repeat refine List.forall_mem_cons.mpr ⟨fun _ _ _ => rfl, ?_⟩
  exact List.forall_mem_nil _

theorem wf_shiftTable : ∀ row ∈ shiftTable, ∀ dflt p dst imm,
    (row.2 p dst imm).wf dflt = decide (p.length + 4 ≤ Config.maxInstrBytes) := by
  unfold shiftTable
  repeat refine List.forall_mem_cons.mpr ⟨fun _ _ _ _ => rfl, ?_⟩
  exact List.forall_mem_nil _

/-- What a lookup finds is an entry of the table. -/
theorem mem_of_lookup {α β : Type} [BEq α] [LawfulBEq α] {l : List (α × β)} {k : α} {v : β}
    (h : l.lookup k = some v) : (k, v) ∈ l := by
  obtain ⟨l₁, l₂, rfl, -⟩ := List.lookup_eq_some_iff.mp h
  simp

/-! ## From bytes to an instruction -/

theorem fits_iff {R : Type} (p : Prefixes) (x : RM R) : x.fits p = true ↔ lenRM p x ≤ Config.maxInstrBytes := by
  cases x <;> exact decide_eq_true_iff

/-- The bytes `bs` after `p` and 0Fh are those of `i`, then `rest`, and only its length may keep `i` from being well
formed (R91). -/
def EncodedAfter (dflt : AddrSize) (p : Prefixes) (i : Instr) (bs rest : List Byte) : Prop :=
  p.map Pfx.byte ++ 0x0F :: bs = encode i ++ rest ∧
    ((encode i).length ≤ Config.maxInstrBytes → i.wf dflt = true)

section Sound

variable {dflt : AddrSize} {p : Prefixes} {i : Instr} {op : Byte} {body bs rest : List Byte}

theorem encodedAfter_of_encHead (henc : encode i = encHead p op body)
    (hwf : (encHead p op body).length ≤ Config.maxInstrBytes → i.wf dflt = true) :
    EncodedAfter dflt p i (op :: (body ++ rest)) rest := by
  refine ⟨?_, henc ▸ hwf⟩
  rw [henc, encHead]
  simp

/-- The forms with an `r/m` operand (R81). -/
theorem encodedAfter_of_takeRM {R : Type} {bits : R → BitVec 3} {ofBits : BitVec 3 → R} {reg : BitVec 3} {x : RM R}
    (hbits : ∀ b, bits (ofBits b) = b) (hx : takeRM ofBits (decodeSize dflt p) bs = .ok ((reg, x), rest))
    (henc : encode i = encHead p op (encRM bits (MmReg.ofBits reg).bits x)) (hwf : i.wf dflt = (x.wf dflt p && x.fits p)) :
    EncodedAfter dflt p i (op :: bs) rest := by
  rw [MmReg.bits_ofBits] at henc
  obtain ⟨rfl, hform⟩ := encRM_of_takeRM hbits hx
  refine encodedAfter_of_encHead henc fun hlen => ?_
  rw [Laws.encHead_rm_length] at hlen
  rw [hwf, hform, (fits_iff p x).mpr hlen]
  rfl

theorem takeShift_ok (h : takeShift p op bs = .ok (i, rest)) : EncodedAfter dflt p i (op :: bs) rest := by
  cases bs with
  | nil => cases h
  | cons m bs =>
    rw [takeShift] at h
    split at h
    next hmod =>
      split at h
      next mk hmk =>
        have hrow := mem_of_lookup hmk
        obtain ⟨imm, himm, rfl⟩ := Parse.map_eq_ok.mp h
        have hm : packModRM 3 (regField m) (MmReg.ofBits (rmField m)).bits = m := by
          rw [MmReg.bits_ofBits, ← hmod, packModRM_fields]
        have henc := encode_shiftTable _ hrow p (MmReg.ofBits (rmField m)) imm
        rw [encF4, hm] at henc
        rw [takeByte_eq_ok.mp himm]
        refine encodedAfter_of_encHead (body := [m, imm]) henc fun hlen => ?_
        rw [Laws.encHead_imm_length] at hlen
        rw [wf_shiftTable _ hrow]
        exact decide_eq_true hlen
      next => cases h
    next => cases h

/-- The row that the second opcode byte selects gives the bytes back (R92). -/
theorem takeOpcode_ok (h : takeOpcode dflt p bs = .ok (i, rest)) : EncodedAfter dflt p i bs rest := by
  cases bs with
  | nil => cases h
  | cons op bs =>
    rw [takeOpcode] at h
    split at h
    next hop =>
      cases h
      refine hop ▸ encodedAfter_of_encHead (body := []) rfl fun hlen => ?_
      rw [Laws.encHead_bare_length] at hlen
      exact decide_eq_true hlen
    split at h
    next hop =>
      split at h
      next => cases h
      next hlock =>
        cases h
        refine hop ▸ encodedAfter_of_encHead (body := []) rfl fun hlen => ?_
        rw [Laws.encHead_bare_length] at hlen
        rw [Instr.wf, Bool.and_eq_true]
        exact ⟨by simpa using hlock, decide_eq_true hlen⟩
    split at h
    next hop =>
      obtain ⟨⟨reg, x⟩, hx, rfl⟩ := Parse.map_eq_ok.mp h
      exact hop ▸ encodedAfter_of_takeRM Gpr.bits_ofBits hx rfl rfl
    split at h
    next hop =>
      obtain ⟨⟨reg, x⟩, hx, rfl⟩ := Parse.map_eq_ok.mp h
      exact hop ▸ encodedAfter_of_takeRM Gpr.bits_ofBits hx rfl rfl
    split at h
    next hop =>
      obtain ⟨⟨reg, x⟩, hx, rfl⟩ := Parse.map_eq_ok.mp h
      exact hop ▸ encodedAfter_of_takeRM MmReg.bits_ofBits hx rfl rfl
    split at h
    next => exact takeShift_ok h
    split at h
    next mk hmk =>
      obtain ⟨⟨reg, x⟩, hx, rfl⟩ := Parse.map_eq_ok.mp h
      have hrow := mem_of_lookup hmk
      exact encodedAfter_of_takeRM MmReg.bits_ofBits hx (encode_f1Table _ hrow p _ x) (wf_f1Table _ hrow dflt p _ x)
    next => cases h

theorem takeBody_ok (h : takeBody dflt p bs = .ok (i, rest)) :
    p.map Pfx.byte ++ bs = encode i ++ rest ∧ ((encode i).length ≤ Config.maxInstrBytes → i.wf dflt = true) := by
  cases bs with
  | nil => cases h
  | cons b bs =>
    rw [takeBody] at h
    split at h
    next hb =>
      subst hb
      exact takeOpcode_ok h
    next => cases h

end Sound

theorem checkLength_eq_ok {avail : Nat} {x : Parse Instr} {i : Instr} {rest : List Byte} :
    checkLength avail x = .ok (i, rest) ↔ x = .ok (i, rest) ∧ avail - rest.length ≤ Config.maxInstrBytes := by
  rcases x with e | ⟨j, bs⟩
  · simp [checkLength]
  · rw [checkLength]
    split
    next hlen =>
      simp only [Except.ok.injEq, Prod.mk.injEq, iff_self_and]
      rintro ⟨-, rfl⟩
      exact hlen
    next hlen =>
      simp only [Except.ok.injEq, Prod.mk.injEq, reduceCtorEq, false_iff, not_and]
      rintro ⟨-, rfl⟩
      exact hlen

/-- All that an answer of the decoder says: the prefixes, what follows them, and the length (R91, R100). -/
theorem decode_ok {dflt : AddrSize} {bs rest : List Byte} {i : Instr} (h : decode dflt bs = .ok (i, rest)) :
    ∃ p tail, takePrefixes bs = .ok (p, tail) ∧ takeBody dflt p tail = .ok (i, rest) ∧
      bs.length - rest.length ≤ Config.maxInstrBytes := by
  unfold decode at h
  split at h
  next p tail hp =>
    obtain ⟨hbody, hlen⟩ := checkLength_eq_ok.mp h
    exact ⟨p, tail, hp, hbody, hlen⟩
  next => cases h

/-- Settles O2: the prefixes, then the row that the opcode selects; the length is what the decoder has checked. -/
theorem encodeOfDecode : Obligations.EncodeOfDecode := by
  intro dflt bs i rest h
  obtain ⟨p, tail, hp, hbody, hlen⟩ := decode_ok h
  obtain ⟨hbytes, hwf⟩ := takeBody_ok hbody
  have hbs : bs = encode i ++ rest := (takePrefixes_ok hp).trans hbytes
  refine ⟨hbs, hwf ?_⟩
  rwa [hbs, List.length_append, Nat.add_sub_cancel] at hlen

/-! ## From an instruction to its bytes -/

/-- After its prefixes an instruction is read by its opcode (R80, R100). -/
theorem decode_of_prefixes (dflt : AddrSize) (p : Prefixes) (bs : List Byte) :
    decode dflt (p.map Pfx.byte ++ 0x0F :: bs) =
      checkLength (p.map Pfx.byte ++ 0x0F :: bs).length (takeOpcode dflt p bs) := by
  have hprefixes : takePrefixes (p.map Pfx.byte ++ 0x0F :: bs) = .ok (p, 0x0F :: bs) := by
    rw [takePrefixes_map_byte]
    exact congrArg (fun q => Except.ok (q, 0x0F :: bs)) (List.append_nil p)
  simp only [decode, hprefixes]
  rfl

/-- The opcodes of the rows that are not of format F1 (R81, R92). -/
def otherOpcodes : List Byte := [0x77, 0xA2, 0x6E, 0x7E, 0x7F, 0x71, 0x72, 0x73]

section Complete

variable {dflt : AddrSize} {p : Prefixes} {i : Instr} {op : Byte} {body rest : List Byte}

/-- An instruction whose opcode and operand bytes are read back is decoded from its encoding, if it is not too long. -/
theorem decode_encHead (hop : takeOpcode dflt p (op :: (body ++ rest)) = .ok (i, rest))
    (hlen : (encHead p op body).length ≤ Config.maxInstrBytes) :
    decode dflt (encHead p op body ++ rest) = .ok (i, rest) := by
  have hbytes : encHead p op body ++ rest = p.map Pfx.byte ++ 0x0F :: op :: (body ++ rest) := by simp [encHead]
  have havail : (encHead p op body ++ rest).length - rest.length = (encHead p op body).length := by simp
  rw [hbytes, decode_of_prefixes, hop, checkLength_eq_ok, ← hbytes, havail]
  exact ⟨rfl, hlen⟩

theorem takeOpcode_f1 {mk : Prefixes → MmReg → RM MmReg → Instr} (hop : f1Table.lookup op = some mk)
    (bs : List Byte) : takeOpcode dflt p (op :: bs) =
      Parse.map (fun x => mk p (MmReg.ofBits x.1) x.2) (takeRM MmReg.ofBits (decodeSize dflt p) bs) := by
  have hrow : ∀ row ∈ f1Table, row.1 ∉ otherOpcodes := by decide
  have hother := hrow _ (mem_of_lookup hop)
  simp only [otherOpcodes, List.mem_cons, List.not_mem_nil, or_false, not_or] at hother
  obtain ⟨h77, hA2, h6E, h7E, h7F, h71, h72, h73⟩ := hother
  simp only [takeOpcode, h77, hA2, h6E, h7E, h7F, h71, h72, h73, hop, if_false, or_self]

/-- An opcode that selects no row (R94, R97). -/
theorem takeOpcode_unassigned (hop : f1Table.lookup op = none) (hother : op ∉ otherOpcodes) (bs : List Byte) :
    takeOpcode dflt p (op :: bs) = .error (.unassignedOpcode op) := by
  simp only [otherOpcodes, List.mem_cons, List.not_mem_nil, or_false, not_or] at hother
  obtain ⟨h77, hA2, h6E, h7E, h7F, h71, h72, h73⟩ := hother
  simp only [takeOpcode, h77, hA2, h6E, h7E, h7F, h71, h72, h73, hop, if_false, or_self]

/-- The opcodes of the shift-by-immediate forms (R95). -/
theorem takeOpcode_shift (dflt : AddrSize) (p : Prefixes) (bs : List Byte) :
    ∀ op ∈ [(0x71 : Byte), 0x72, 0x73], takeOpcode dflt p (op :: bs) = takeShift p op bs :=
  List.forall_mem_cons.mpr ⟨rfl, List.forall_mem_cons.mpr ⟨rfl, List.forall_mem_singleton.mpr rfl⟩⟩

/-- The forms with an `r/m` operand (R81), `mk` giving the instruction from the register of ModRM.reg and the operand. -/
theorem decode_encHead_rm {R : Type} {bits : R → BitVec 3} {ofBits : BitVec 3 → R} {mk : MmReg → RM R → Instr}
    {r : MmReg} {x : RM R} (hofBits : ∀ a, ofBits (bits a) = a)
    (hop : ∀ bs, takeOpcode dflt p (op :: bs) =
      Parse.map (fun y => mk (MmReg.ofBits y.1) y.2) (takeRM ofBits (decodeSize dflt p) bs))
    (hwf : (x.wf dflt p && x.fits p) = true) :
    decode dflt (encHead p op (encRM bits r.bits x) ++ rest) = .ok (mk r x, rest) := by
  obtain ⟨hform, hfits⟩ := Bool.and_eq_true_iff.mp hwf
  refine decode_encHead ?_ ?_
  · rw [hop, takeRM_encRM hofBits hform, Parse.map, MmReg.ofBits_bits]
  · rw [Laws.encHead_rm_length]
    exact (fits_iff p x).mp hfits

theorem decode_encF1 {mk : Prefixes → MmReg → RM MmReg → Instr} {dst : MmReg} {src : RM MmReg}
    (hop : f1Table.lookup op = some mk) (hwf : (src.wf dflt p && src.fits p) = true) :
    decode dflt (encF1 p op dst src ++ rest) = .ok (mk p dst src, rest) :=
  decode_encHead_rm MmReg.ofBits_bits (takeOpcode_f1 hop) hwf

theorem decode_encF4 {digit : BitVec 3} {mk : Prefixes → MmReg → Byte → Instr} {dst : MmReg} {imm : Byte}
    (hop : shiftTable.lookup (op, digit) = some mk) (hwf : decide (p.length + 4 ≤ Config.maxInstrBytes) = true) :
    decode dflt (encF4 p op digit dst imm ++ rest) = .ok (mk p dst imm, rest) := by
  have hopcode : ∀ row ∈ shiftTable, row.1.1 ∈ [(0x71 : Byte), 0x72, 0x73] := by decide
  refine decode_encHead ?_ ?_
  · rw [takeOpcode_shift dflt p _ op (hopcode _ (mem_of_lookup hop)), List.cons_append, takeShift, modField_packModRM,
      if_pos rfl, regField_packModRM, rmField_packModRM, hop, MmReg.ofBits_bits]
    rfl
  · rw [Laws.encHead_imm_length]
    exact of_decide_eq_true hwf

/-- EMMS and CPUID (R81). -/
theorem decode_encHead_bare (hop : takeOpcode dflt p (op :: rest) = .ok (i, rest))
    (hlen : p.length + 2 ≤ Config.maxInstrBytes) : decode dflt (encHead p op [] ++ rest) = .ok (i, rest) := by
  refine decode_encHead hop ?_
  rwa [Laws.encHead_bare_length]

end Complete

/-- Settles O1: each row by the lemma of its format. -/
theorem decodeOfEncode : Obligations.DecodeOfEncode := by
  intro dflt i rest hwf
  cases i
  case emms p => exact decode_encHead_bare rfl (of_decide_eq_true hwf)
  case cpuid p =>
    obtain ⟨hlock, hlen⟩ := Bool.and_eq_true_iff.mp hwf
    exact decode_encHead_bare (if_neg (by simpa using hlock)) (of_decide_eq_true hlen)
  case movdLoad p dst src => exact decode_encHead_rm (mk := .movdLoad p) Gpr.ofBits_bits (fun _ => rfl) hwf
  case movdStore p dst src =>
    exact decode_encHead_rm (mk := fun r x => .movdStore p x r) Gpr.ofBits_bits (fun _ => rfl) hwf
  case movqStore p dst src =>
    exact decode_encHead_rm (mk := fun r x => .movqStore p x r) MmReg.ofBits_bits (fun _ => rfl) hwf
  case psrlwImm | psrawImm | psllwImm | psrldImm | psradImm | pslldImm | psrlqImm | psllqImm =>
    exact decode_encF4 rfl hwf
  -- every other row is of format F1
  all_goals exact decode_encF1 rfl hwf

end Sys2Proof
end

section
/-! PROOFS. What the decoder refuses, samples of what it reads (30_encoding.md R91 to R101), and the step that runs the
instruction whose bytes stand at pc (R99, R100). -/

namespace Sys2Proof

/-! ## Refusals -/

theorem decode_of_takeOpcode_error {dflt : AddrSize} {p : Prefixes} {bs : List Byte} {e : DecodeError}
    (h : takeOpcode dflt p bs = .error e) : decode dflt (p.map Pfx.byte ++ 0x0F :: bs) = .error e := by
  rw [decode_of_prefixes, h]
  rfl

/-- A digit that selects no row (R95, R97). -/
theorem takeShift_unassigned (p : Prefixes) {op : Byte} {digit : BitVec 3} (hlookup : shiftTable.lookup (op, digit) = none)
    (r : BitVec 3) (bs : List Byte) :
    takeShift p op (packModRM 3 digit r :: bs) = .error (.unassignedShift op digit) := by
  rw [takeShift, modField_packModRM, if_pos rfl, regField_packModRM, hlookup]

/-- The shift-by-immediate forms have no memory operand (R97). -/
theorem takeShift_memory (p : Prefixes) (op : Byte) {mod : BitVec 2} (hmod : mod ≠ 3) (digit r : BitVec 3)
    (bs : List Byte) : takeShift p op (packModRM mod digit r :: bs) = .error (.shiftWithMemory op) := by
  rw [takeShift, modField_packModRM, if_neg hmod]

/-- 66h, F2h and F3h, of which the source says nothing (R91). -/
theorem decode_of_pfxRefused (dflt : AddrSize) (p : Prefixes) {b : Byte} (hb : pfxRefused b = true) (bs : List Byte) :
    decode dflt (p.map Pfx.byte ++ b :: bs) = .error (.pfxNotInSource b) := by
  have hprefixes : takePrefixes (p.map Pfx.byte ++ b :: bs) = .error (.pfxNotInSource b) := by
    rw [takePrefixes_map_byte, takePrefixes, if_pos hb]
    rfl
  rw [decode, hprefixes]

/-- Settles O4: none of the opcodes and digits has a row in the tables. -/
theorem unassignedEncodingsRefused : Obligations.UnassignedEncodingsRefused := by
  refine fun dflt p rest => ⟨fun op hop => ?opcode, fun op hop digit r hdigit => ?digit,
    fun op hop mod digit r hmod => ?memory, fun b hb => ?pfx⟩
  case opcode =>
    have hnorow : ∀ op ∈ [(0x6C : Byte), 0x6D, 0x70, 0x78, 0x79, 0x7A, 0x7B, 0x7C, 0x7D, 0xD0, 0xD4, 0xD6, 0xD7, 0xDA,
        0xDE, 0xE0, 0xE3, 0xE4, 0xE6, 0xE7, 0xEA, 0xEE, 0xF0, 0xF4, 0xF6, 0xF7, 0xFB, 0xFF],
        (f1Table.lookup op).isNone ∧ op ∉ otherOpcodes := by decide
    obtain ⟨hlookup, hother⟩ := hnorow op hop
    exact decode_of_takeOpcode_error (takeOpcode_unassigned (Option.isNone_iff_eq_none.mp hlookup) hother rest)
  case digit =>
    have hnorow : ∀ op ∈ [(0x71 : Byte), 0x72, 0x73], ∀ digit : BitVec 3,
        digit ∉ [(2 : BitVec 3), 4, 6] ∨ (op = 0x73 ∧ digit = 4) → (shiftTable.lookup (op, digit)).isNone := by decide
    refine decode_of_takeOpcode_error ((takeOpcode_shift dflt p _ op hop).trans ?_)
    exact takeShift_unassigned p (Option.isNone_iff_eq_none.mp (hnorow op hop digit hdigit)) r rest
  case memory =>
    refine decode_of_takeOpcode_error ((takeOpcode_shift dflt p _ op hop).trans ?_)
    exact takeShift_memory p op hmod digit r rest
  case pfx =>
    have hrefused : ∀ b ∈ [(0x66 : Byte), 0xF2, 0xF3], pfxRefused b = true := by decide
    exact decode_of_pfxRefused dflt p (hrefused b hb) rest

/-! ## Samples -/

/-- Settles O3: each of the sequences is the encoding of a well-formed instruction. -/
theorem sampleWordsDecode : Obligations.SampleWordsDecode := by
  have hsample {i : Instr} (hwf : i.wf .a32 = true) : decode .a32 (encode i) = .ok (i, []) := by
    simpa using decodeOfEncode .a32 i [] hwf
  exact ⟨hsample (i := .emms []) rfl, hsample (i := .paddb [] .mm0 (.reg .mm1)) rfl,
    hsample (i := .paddb [] .mm3 (.mem (.a32 (.base .esi .none)))) rfl,
    hsample (i := .movqStore [] (.mem (.a32 (.base .edi .none))) .mm1) rfl,
    hsample (i := .movqLoad [] .mm2 (.mem (.a32 (.sib 3 (some .ecx) .ebx (.d8 0x10))))) rfl,
    hsample (i := .movqLoad [] .mm1 (.mem (.a32 (.abs 0x12345678)))) rfl,
    hsample (i := .movdLoad [] .mm2 (.reg .eax)) rfl, hsample (i := .movdStore [] (.reg .ecx) .mm5) rfl,
    hsample (i := .psrlwImm [] .mm3 8) rfl, hsample (i := .psllqImm [] .mm7 63) rfl,
    hsample (i := .pxor [.seg .es] .mm4 (.mem (.a32 (.base .ebx .none)))) rfl,
    hsample (i := .movqLoad [.addrSize] .mm0 (.mem (.a16 (.based .bxsi .none)))) rfl, hsample (i := .cpuid []) rfl⟩

end Sys2Proof

namespace Sys2Proof.Machine

open Sys2Proof

/-! ## The instruction at pc -/

/-- Bytes that can be fetched from byte k on stand at the front of what is fetched there (R99). -/
theorem fetchBytes_eq_append {s : State} {l : List Byte} {n k : Nat} (hlen : l.length ≤ n)
    (hfetch : ∀ j, (h : j < l.length) → fetchByte s (k + j) = some l[j]) : ∃ rest, fetchBytes s n k = l ++ rest := by
  induction l generalizing n k with
  | nil => exact ⟨_, rfl⟩
  | cons b l ih =>
    cases n with
    | zero => simp at hlen
    | succ n =>
      obtain ⟨rest, hrest⟩ := ih (n := n) (k := k + 1) (by simpa using hlen) fun j hj => by
        rw [Nat.add_right_comm k 1 j]
        exact hfetch (j + 1) (by simpa using hj)
      have hb : fetchByte s k = some b := hfetch 0 (by simp)
      exact ⟨rest, by simp [fetchBytes, hb, hrest]⟩

/-- A well-formed instruction has at most 15 bytes (R91). -/
theorem encode_length_le_of_wf {dflt : AddrSize} {i : Instr} (hwf : i.wf dflt = true) :
    (encode i).length ≤ Config.maxInstrBytes := by
  obtain ⟨-, -, -, -, hlen⟩ := decode_ok (decodeOfEncode dflt i [] hwf)
  simpa using hlen

/-- Settles O56: the window begins with the bytes of the instruction, which the decoder reads back. -/
theorem stepRunsEncodedInstruction : Obligations.StepRunsEncodedInstruction := by
  intro s i hrun hwf hfetch hfits
  obtain ⟨rest, hwindow⟩ := fetchBytes_eq_append (k := 0) (encode_length_le_of_wf hwf) (by simpa using hfetch)
  have hdec : decode s.defaultAddrSize (fetchWindow s) = .ok (i, rest) := by
    rw [fetchWindow, hwindow]
    exact decodeOfEncode _ i rest hwf
  have hlen : (fetchWindow s).length - rest.length = (encode i).length := by simp [fetchWindow, hwindow]
  rw [step_of_running hrun, runInstruction_of_mmx (fetchDecode_of_decode hdec (hlen ▸ hfits))]

end Sys2Proof.Machine
end

section
/-! PROOFS. The checks in their order and then the memory operand (60_exceptions.md R228, R229); what the forms
`mmreg1, mmreg2/mem64` have in common (30_encoding.md R81, R110); the two encodings of MOVQ between registers (R98). -/

namespace Sys2Proof.Machine

open Sys2Proof

/-! ## An access that ends the instruction -/

/-- The answer of an instruction that an operand access ends (R57, R60, R62, R68). -/
def Stop.answer (s : State) : Stop → Result
  | .raise v => .next (s.raised v)
  | .refuse r => .refused r

theorem withAccess_error {α : Type} (s : State) (e : Stop) (k : α → Result) : withAccess s (.error e) k = e.answer s := by
  cases e <;> rfl

theorem memAccess_eq_some {R : Type} {x : RM R} {n n' : Nat} {kind kind' : AccessKind} {m : MemOp}
    (h : RM.memAccess n kind x = some (m, n', kind')) : x = .mem m ∧ n' = n ∧ kind' = kind := by
  cases x with
  | reg r => cases h
  | mem m' =>
    cases h
    exact ⟨rfl, rfl, rfl⟩

section AccessError

variable {p : Prefixes} {s : State} {m : MemOp} {e : Stop}

theorem src64_mem_error (h : accessAddrs s (segmentOf p m) (offsetOf s m) 8 .read = .error e) :
    src64 p s (.mem m) = .error e := by
  simp only [src64, memRead, h]
  rfl

theorem src32_mem_error (h : accessAddrs s (segmentOf p m) (offsetOf s m) 4 .read = .error e) :
    src32 p s (.mem m) = .error e := by
  simp only [src32, memRead, h]
  rfl

theorem dst64_mem_error (h : accessAddrs s (segmentOf p m) (offsetOf s m) 8 .write = .error e) (v : QWord) :
    dst64 p s v (.mem m) = .error e := by
  simp only [dst64, memWrite, h]
  rfl

theorem dst32_mem_error (h : accessAddrs s (segmentOf p m) (offsetOf s m) 4 .write = .error e) (v : DWord) :
    dst32 p s v (.mem m) = .error e := by
  simp only [dst32, memWrite, h]
  rfl

end AccessError

/-- After the check an access that fails ends the instruction (R228, R229). -/
theorem mmxCheck_access_error {α : Type} {p : Prefixes} {s : State} {e : Stop} {a : State → Except Stop α}
    {k : State → α → Result} (hready : Ready p s) (h : a s = .error e) :
    mmxCheck p s (fun s => withAccess s (a s) (k s)) = e.answer s := by
  rw [mmxCheck_ready hready, h, withAccess_error]

theorem packedOp_source_error {p : Prefixes} {dst : MmReg} {src : RM MmReg} {f : QWord → QWord → QWord} {s : State}
    {e : Stop} (hready : Ready p s) (hsrc : src64 p s src = .error e) : packedOp p dst src f s = e.answer s :=
  mmxCheck_access_error hready hsrc

/-- An instruction ends as the access of its memory operand does, whatever the instruction. -/
theorem exec_access_error {i : Instr} {s : State} {m : MemOp} {n : Nat} {kind : AccessKind} {e : Stop}
    (hready : Ready i.pfx s) (hmem : i.access = some (m, n, kind))
    (herror : accessAddrs s (segmentOf i.pfx m) (offsetOf s m) n kind = .error e) : exec i s = e.answer s := by
  rcases exec_shape i with ⟨dst, src, f, -, -, -, haccess, hexec⟩ | ⟨-, -, -, -, -, -, hnone, -⟩ | ⟨p, dst, src, rfl⟩ |
    ⟨p, dst, src, rfl⟩ | ⟨p, dst, src, rfl⟩ | ⟨p, rfl⟩ | ⟨p, rfl⟩
  · -- `mmreg1, mmreg2/mem64`
    obtain ⟨rfl, rfl, rfl⟩ := memAccess_eq_some (haccess.symm.trans hmem)
    exact (hexec s).trans (packedOp_source_error hready (src64_mem_error herror))
  · -- shifts by immediate
    cases hnone.symm.trans hmem
  · -- MOVD load
    obtain ⟨rfl, rfl, rfl⟩ := memAccess_eq_some hmem
    exact mmxCheck_access_error hready (src32_mem_error herror)
  · -- MOVD store
    obtain ⟨rfl, rfl, rfl⟩ := memAccess_eq_some hmem
    exact mmxCheck_access_error hready (dst32_mem_error herror _)
  · -- MOVQ store
    obtain ⟨rfl, rfl, rfl⟩ := memAccess_eq_some hmem
    exact mmxCheck_access_error hready (dst64_mem_error herror _)
  · -- EMMS
    cases hmem
  · -- CPUID
    cases hmem

/-- Settles O15: the causes of the check in its order, then the access of the memory operand. -/
theorem checksInOrder : Obligations.ChecksInOrder :=
  fun _ s hmmx => ⟨failsChecks_of_isMmx hmmx s, fun hready _ _ _ hmem =>
    ⟨fun _ hraise => exec_access_error hready hmem hraise, fun _ hrefuse => exec_access_error hready hmem hrefuse⟩⟩

/-! ## The two encodings of MOVQ between registers -/

/-- Settles O46: the opcode bytes differ, and the check, the value and the register written are the same. -/
theorem twoEncodingsOfRegisterMovq : Obligations.TwoEncodingsOfRegisterMovq := by
  refine fun p dst src s => ⟨fun h => ?_, rfl⟩
  cases List.append_cancel_left h

/-! ## The forms `mmreg1, mmreg2/mem64` -/

/-- An instruction whose meaning is the common step with the lane function `f` is of the packed form with `f`'s result. -/
theorem packedForm_of_packedOp {mk : Prefixes → MmReg → RM MmReg → Instr} {op : Byte}
    {rel : QWord → QWord → QWord → Prop} {f : QWord → QWord → QWord}
    (henc : ∀ p dst src, encode (mk p dst src) = encF1 p op dst src)
    (hmmx : ∀ p dst src, (mk p dst src).isMmx = true)
    (hexec : ∀ p dst src s, exec (mk p dst src) s = packedOp p dst src f s)
    (hrel : ∀ a b, rel a b (f a b)) : PackedForm mk op rel := by
  refine fun p dst src s => ⟨henc p dst src, fun hready b hb => ?completes, fun hready v hv => ?raises,
    (failsChecks_of_isMmx (hmmx p dst src) s).raisesOnOneCause⟩
  case completes =>
    exact ⟨_, _, hrel _ b, (hexec p dst src s).trans (packedOp_ready hready hb), State.wroteMm s dst _ _⟩
  case raises => exact (hexec p dst src s).trans (packedOp_source_error hready hv)

end Sys2Proof.Machine
end

section
/-! PROOFS. The saturations, products and packs of lanes in the spec's arithmetic (00_scope.md R10, R11), and the
instructions that are made of them. -/

namespace Sys2Proof.Machine

open Sys2Proof

/-! ## Saturation (R10) -/

/-- `SatU_N` limits to 0 .. 2^N-1. -/
theorem toNat_satU (N : Nat) (n : Int) : ((satU N n).toNat : Int) = max 0 (min (2 ^ N - 1) n) := by
  have hpos : (0 : Int) < 2 ^ N := by positivity
  rw [satU, BitVec.toNat_ofInt]
  push_cast
  rw [Int.emod_eq_of_lt (by omega) (by omega)]
  omega

/-- `SatS_N` limits to -2^(N-1) .. 2^(N-1)-1. -/
theorem toInt_satS {N : Nat} (hN : 0 < N) (n : Int) :
    (satS N n).toInt = max (-(2 ^ (N - 1))) (min (2 ^ (N - 1) - 1) n) := by
  obtain ⟨k, rfl⟩ : ∃ k, N = k + 1 := ⟨N - 1, by omega⟩
  have hpos : (0 : Int) < 2 ^ k := by positivity
  rw [satS, BitVec.toInt_ofInt, Nat.add_sub_cancel]
  apply Int.bmod_eq_of_le <;> push_cast [pow_succ] <;> omega

theorem byteLane_mapBytes (f : BitVec 8 → BitVec 8 → BitVec 8) (a b : QWord) {i : Nat} (hi : i < 8) :
    byteLane (mapBytes f a b) i = f (byteLane a i) (byteLane b i) :=
  byteLane_ofBytes _ hi

theorem wordLane_mapWords (f : BitVec 16 → BitVec 16 → BitVec 16) (a b : QWord) {i : Nat} (hi : i < 4) :
    wordLane (mapWords f a b) i = f (wordLane a i) (wordLane b i) :=
  wordLane_ofWords _ hi

theorem toNat_addSatU {N : Nat} (a b : BitVec N) : (addSatU a b).toNat = min (2 ^ N - 1) (a.toNat + b.toNat) := by
  have hsat : ((addSatU a b).toNat : Int) = max 0 (min (2 ^ N - 1) ((a.toNat : Int) + b.toNat)) := toNat_satU N _
  have hone : 1 ≤ 2 ^ N := Nat.one_le_two_pow
  have hpow : (1 : Int) ≤ 2 ^ N := by exact_mod_cast hone
  zify [hone]
  rw [hsat, max_eq_right (by omega)]

/-- Settles O29: lane by lane. -/
theorem packedAddUnsignedSaturation : Obligations.PackedAddUnsignedSaturation := by
  refine ⟨packedForm_of_packedOp (f := mapBytes addSatU) (fun _ _ _ => rfl) (fun _ _ _ => rfl) (fun _ _ _ _ => rfl) ?bytes,
    packedForm_of_packedOp (f := mapWords addSatU) (fun _ _ _ => rfl) (fun _ _ _ => rfl) (fun _ _ _ _ => rfl) ?words⟩
  case bytes =>
    intro a b i hi
    rw [byteLane_mapBytes _ _ _ hi]
    exact toNat_addSatU _ _
  case words =>
    intro a b i hi
    rw [wordLane_mapWords _ _ _ hi]
    exact toNat_addSatU _ _

/-! ## Products (R131 to R133) -/

/-- The product of signed words is within 2^30 of 0. -/
theorem wordProduct_bounds (x y : BitVec 16) : -2 ^ 30 ≤ wordProduct x y ∧ wordProduct x y ≤ 2 ^ 30 :=
  ⟨BitVec.le_toInt_mul_toInt, BitVec.toInt_mul_toInt_le⟩

/-- A factor other than 8000h keeps the product below 2^30. -/
theorem wordProduct_lt_of_ne {x : BitVec 16} (hx : x ≠ 0x8000) (y : BitVec 16) : wordProduct x y < 2 ^ 30 := by
  have hne : x.toInt ≠ -32768 := fun h => hx (BitVec.eq_of_toInt_eq h)
  have hxlo : -2 ^ 15 ≤ x.toInt := BitVec.le_toInt x
  have hxhi : x.toInt < 2 ^ 15 := BitVec.toInt_lt
  have hylo : -2 ^ 15 ≤ y.toInt := BitVec.le_toInt y
  have hyhi : y.toInt < 2 ^ 15 := BitVec.toInt_lt
  have hxabs : |x.toInt| ≤ 32767 := abs_le.mpr ⟨by omega, by omega⟩
  have hyabs : |y.toInt| ≤ 32768 := abs_le.mpr ⟨by omega, by omega⟩
  calc wordProduct x y ≤ |x.toInt * y.toInt| := le_abs_self _
    _ = |x.toInt| * |y.toInt| := abs_mul _ _
    _ ≤ 32767 * 32768 := mul_le_mul hxabs hyabs (abs_nonneg _) (by decide)
    _ < 2 ^ 30 := by decide

theorem wordProduct_comm (x y : BitVec 16) : wordProduct x y = wordProduct y x :=
  Int.mul_comm _ _

/-- Only 8000h times 8000h is 2^30. -/
theorem eq_of_wordProduct_eq_max {x y : BitVec 16} (h : wordProduct x y = 2 ^ 30) : x = 0x8000 ∧ y = 0x8000 :=
  ⟨by_contra fun hx => (wordProduct_lt_of_ne hx y).ne h,
    by_contra fun hy => (wordProduct_lt_of_ne hy x).ne (wordProduct_comm x y ▸ h)⟩

theorem toInt_ofInt_of_bounds {n : Int} (hlo : -2 ^ 31 ≤ n) (hhi : n < 2 ^ 31) : (BitVec.ofInt 32 n).toInt = n := by
  rw [BitVec.toInt_ofInt]
  apply Int.bmod_eq_of_le <;> omega

theorem toInt_highWord (v : BitVec 32) : (v.extractLsb' 16 16).toInt = v.toInt / 65536 := by
  have hv := v.isLt
  simp only [BitVec.toInt_eq_toNat_cond, BitVec.extractLsb'_toNat, Nat.shiftRight_eq_div_pow]
  split <;> split <;> omega

theorem lowWord_ofInt (n : Int) : (BitVec.ofInt 32 n).extractLsb' 0 16 = BitVec.ofInt 16 n := by
  apply BitVec.eq_of_toNat_eq
  simp only [BitVec.extractLsb'_toNat, BitVec.toNat_ofInt, Nat.shiftRight_zero]
  omega

theorem toInt_mulHigh (x y : BitVec 16) : (mulHigh x y).toInt = x.toInt * y.toInt / 65536 := by
  obtain ⟨hlo, hhi⟩ := wordProduct_bounds x y
  rw [mulHigh, toInt_highWord, toInt_ofInt_of_bounds (by omega) (by omega), wordProduct]

theorem mulLow_eq_ofInt (x y : BitVec 16) : mulLow x y = BitVec.ofInt 16 (x.toInt * y.toInt) :=
  lowWord_ofInt _

theorem mulLow_eq_ofNat (x y : BitVec 16) : mulLow x y = BitVec.ofNat 16 (x.toNat * y.toNat) := by
  rw [mulLow_eq_ofInt, BitVec.ofInt_mul, BitVec.ofInt_toInt, BitVec.ofInt_toInt, BitVec.ofNat_mul, BitVec.ofNat_toNat]
  simp

/-- Settles O34: lane by lane. -/
theorem multiplyHighAndLow : Obligations.MultiplyHighAndLow := by
  refine ⟨packedForm_of_packedOp (f := mapWords mulHigh) (fun _ _ _ => rfl) (fun _ _ _ => rfl) (fun _ _ _ _ => rfl) ?high,
    packedForm_of_packedOp (f := mapWords mulLow) (fun _ _ _ => rfl) (fun _ _ _ => rfl) (fun _ _ _ _ => rfl) ?low⟩
  case high =>
    intro a b i hi
    rw [wordLane_mapWords _ _ _ hi]
    exact toInt_mulHigh _ _
  case low =>
    intro a b i hi
    rw [wordLane_mapWords _ _ _ hi]
    exact ⟨mulLow_eq_ofInt _ _, mulLow_eq_ofNat _ _⟩

/-- Only where all four words are 8000h does the sum leave the signed doublewords (R131). -/
theorem toInt_pairSum {a b : QWord} {i : Nat}
    (h : ¬(wordLane a (2 * i) = 0x8000 ∧ wordLane b (2 * i) = 0x8000 ∧ wordLane a (2 * i + 1) = 0x8000 ∧
      wordLane b (2 * i + 1) = 0x8000)) :
    (pairSum a b i).toInt = wordProduct (wordLane a (2 * i)) (wordLane b (2 * i)) +
      wordProduct (wordLane a (2 * i + 1)) (wordLane b (2 * i + 1)) := by
  obtain ⟨hlo, hhi⟩ := wordProduct_bounds (wordLane a (2 * i)) (wordLane b (2 * i))
  obtain ⟨hlo', hhi'⟩ := wordProduct_bounds (wordLane a (2 * i + 1)) (wordLane b (2 * i + 1))
  have hsum : ¬(wordProduct (wordLane a (2 * i)) (wordLane b (2 * i)) = 2 ^ 30 ∧
      wordProduct (wordLane a (2 * i + 1)) (wordLane b (2 * i + 1)) = 2 ^ 30) := by
    rintro ⟨hmax, hmax'⟩
    obtain ⟨ha, hb⟩ := eq_of_wordProduct_eq_max hmax
    obtain ⟨ha', hb'⟩ := eq_of_wordProduct_eq_max hmax'
    exact h ⟨ha, hb, ha', hb'⟩
  exact toInt_ofInt_of_bounds (by omega) (by omega)

/-- Settles O33: the sum leaves the doubleword range only where both products are greatest. -/
theorem multiplyAddAdjacentWords : Obligations.MultiplyAddAdjacentWords := by
  refine packedForm_of_packedOp (f := pairSums) (fun _ _ _ => rfl) (fun _ _ _ => rfl) (fun _ _ _ _ => rfl)
    fun a b i hi => ?_
  have hlane : dwordLane (pairSums a b) i = pairSum a b i := dwordLane_ofDWords _ hi
  rw [hlane]
  refine ⟨rfl, ?_⟩
  split
  next hall =>
    obtain ⟨ha, hb, ha', hb'⟩ := hall
    rw [pairSum, ha, hb, ha', hb']
    decide
  next hne => exact toInt_pairSum hne

/-! ## Packs (R155 to R158) -/

theorem wordLane_packDW_low (a b : QWord) {i : Nat} (hi : i < 2) :
    wordLane (packDW a b) i = satS 16 (dwordLane a i).toInt := by
  rw [packDW, wordLane_ofWords _ (by omega), if_pos hi, Nat.mod_eq_of_lt hi]

theorem wordLane_packDW_high (a b : QWord) {i : Nat} (hi : i < 2) :
    wordLane (packDW a b) (2 + i) = satS 16 (dwordLane b i).toInt := by
  rw [packDW, wordLane_ofWords _ (by omega), if_neg (by omega), Nat.add_mod_left, Nat.mod_eq_of_lt hi]

theorem byteLane_packWB_low (sat : Int → BitVec 8) (a b : QWord) {i : Nat} (hi : i < 4) :
    byteLane (packWB sat a b) i = sat (wordLane a i).toInt := by
  rw [packWB, byteLane_ofBytes _ (by omega), if_pos hi, Nat.mod_eq_of_lt hi]

theorem byteLane_packWB_high (sat : Int → BitVec 8) (a b : QWord) {i : Nat} (hi : i < 4) :
    byteLane (packWB sat a b) (4 + i) = sat (wordLane b i).toInt := by
  rw [packWB, byteLane_ofBytes _ (by omega), if_neg (by omega), Nat.add_mod_left, Nat.mod_eq_of_lt hi]

/-- Settles O38: the low half is the destination's, the high half the source's, each element saturated. -/
theorem packWithSaturation : Obligations.PackWithSaturation := by
  refine ⟨packedForm_of_packedOp (f := packDW) (fun _ _ _ => rfl) (fun _ _ _ => rfl) (fun _ _ _ _ => rfl) ?ssdw,
    packedForm_of_packedOp (f := packWB (satS 8)) (fun _ _ _ => rfl) (fun _ _ _ => rfl) (fun _ _ _ _ => rfl) ?sswb,
    packedForm_of_packedOp (f := packWB (satU 8)) (fun _ _ _ => rfl) (fun _ _ _ => rfl) (fun _ _ _ _ => rfl) ?uswb⟩
  case ssdw =>
    intro a b i hi
    rw [wordLane_packDW_low a b hi, wordLane_packDW_high a b hi]
    exact ⟨toInt_satS (by decide) _, toInt_satS (by decide) _⟩
  case sswb =>
    intro a b i hi
    rw [byteLane_packWB_low _ a b hi, byteLane_packWB_high _ a b hi]
    exact ⟨toInt_satS (by decide) _, toInt_satS (by decide) _⟩
  case uswb =>
    intro a b i hi
    rw [byteLane_packWB_low _ a b hi, byteLane_packWB_high _ a b hi]
    exact ⟨toNat_satU 8 _, toNat_satU 8 _⟩

end Sys2Proof.Machine
end

section
/-! PROOFS. Packed add and subtract (40_arith_add_sub.md R110 to R124): what one lane computes, for every width, and the
instructions that apply it to each pair of lanes. -/

namespace Sys2Proof.Machine

open Sys2Proof

/-! ## An operation on each pair of lanes -/

theorem dwordLane_mapDWords (f : BitVec 32 → BitVec 32 → BitVec 32) (a b : QWord) {i : Nat} (hi : i < 2) :
    dwordLane (mapDWords f a b) i = f (dwordLane a i) (dwordLane b i) :=
  dwordLane_ofDWords _ hi

/-- An instruction whose meaning applies `g` to each pair of lanes is of the packed form with every relation that these
lanes satisfy. -/
theorem packedForm_of_lanes {mk : Prefixes → MmReg → RM MmReg → Instr} {op : Byte} {N count : Nat}
    {lane : QWord → Nat → BitVec N} {f : QWord → QWord → QWord} {g : BitVec N → BitVec N → BitVec N}
    {rel : QWord → QWord → QWord → Prop}
    (hmk : ∀ p dst src, encode (mk p dst src) = encF1 p op dst src ∧ (mk p dst src).isMmx = true ∧
      ∀ s, exec (mk p dst src) s = packedOp p dst src f s)
    (hlane : ∀ a b {i}, i < count → lane (f a b) i = g (lane a i) (lane b i))
    (hrel : ∀ a b r, (∀ i, i < count → lane r i = g (lane a i) (lane b i)) → rel a b r) : PackedForm mk op rel :=
  packedForm_of_packedOp (fun p dst src => (hmk p dst src).left) (fun p dst src => (hmk p dst src).right.left)
    (fun p dst src => (hmk p dst src).right.right) fun a b => hrel a b _ fun _ hi => hlane a b hi

/-! ## One lane: wraparound (R111 to R113, R118 to R120) -/

theorem addWrap_eq_ofNat {N : Nat} (a b : BitVec N) : addWrap a b = BitVec.ofNat N (a.toNat + b.toNat) := by
  rw [addWrap, ← BitVec.ofInt_natCast, Nat.cast_add]

theorem subWrap_eq_ofInt {N : Nat} (a b : BitVec N) : subWrap a b = BitVec.ofInt N (a.toNat - b.toNat : Int) :=
  rfl

/-! ## One lane: saturation (R114, R115, R121 to R124) -/

theorem toInt_addSatS {N : Nat} (hN : 0 < N) (a b : BitVec N) :
    (addSatS a b).toInt = max (-(2 ^ (N - 1))) (min (2 ^ (N - 1) - 1) (a.toInt + b.toInt)) :=
  toInt_satS hN _

theorem toInt_subSatS {N : Nat} (hN : 0 < N) (a b : BitVec N) :
    (subSatS a b).toInt = max (-(2 ^ (N - 1))) (min (2 ^ (N - 1) - 1) (a.toInt - b.toInt)) :=
  toInt_satS hN _

/-- A difference never exceeds the range, so only the limit 0 acts. -/
theorem toNat_subSatU {N : Nat} (a b : BitVec N) :
    (subSatU a b).toNat = if a.toNat < b.toNat then 0 else a.toNat - b.toNat := by
  have hsat : ((subSatU a b).toNat : Int) = max 0 (min (2 ^ N - 1) ((a.toNat : Int) - b.toNat)) := toNat_satU N _
  have ha : (a.toNat : Int) < 2 ^ N := by exact_mod_cast a.isLt
  rw [min_eq_right (by omega)] at hsat
  split <;> omega

/-! ## The instructions -/

/-- Settles O27: the wrapped sum in each lane. -/
theorem packedAddWraparound : Obligations.PackedAddWraparound :=
  ⟨packedForm_of_lanes (fun _ _ _ => ⟨rfl, rfl, fun _ => rfl⟩) (byteLane_mapBytes addWrap) fun _ _ _ hr i hi =>
      (hr i hi).trans (addWrap_eq_ofNat _ _),
    packedForm_of_lanes (fun _ _ _ => ⟨rfl, rfl, fun _ => rfl⟩) (wordLane_mapWords addWrap) fun _ _ _ hr i hi =>
      (hr i hi).trans (addWrap_eq_ofNat _ _),
    packedForm_of_lanes (fun _ _ _ => ⟨rfl, rfl, fun _ => rfl⟩) (dwordLane_mapDWords addWrap) fun _ _ _ hr i hi =>
      (hr i hi).trans (addWrap_eq_ofNat _ _)⟩

/-- Settles O28: the signed sum in each lane, limited to the lane's range. -/
theorem packedAddSignedSaturation : Obligations.PackedAddSignedSaturation :=
  ⟨packedForm_of_lanes (fun _ _ _ => ⟨rfl, rfl, fun _ => rfl⟩) (byteLane_mapBytes addSatS) fun _ _ _ hr i hi =>
      (congrArg BitVec.toInt (hr i hi)).trans (toInt_addSatS (by decide) _ _),
    packedForm_of_lanes (fun _ _ _ => ⟨rfl, rfl, fun _ => rfl⟩) (wordLane_mapWords addSatS) fun _ _ _ hr i hi =>
      (congrArg BitVec.toInt (hr i hi)).trans (toInt_addSatS (by decide) _ _)⟩

/-- Settles O30: destination minus source in each lane, wrapped. -/
theorem packedSubtractWraparound : Obligations.PackedSubtractWraparound :=
  ⟨packedForm_of_lanes (fun _ _ _ => ⟨rfl, rfl, fun _ => rfl⟩) (byteLane_mapBytes subWrap) fun _ _ _ hr i hi =>
      (hr i hi).trans (subWrap_eq_ofInt _ _),
    packedForm_of_lanes (fun _ _ _ => ⟨rfl, rfl, fun _ => rfl⟩) (wordLane_mapWords subWrap) fun _ _ _ hr i hi =>
      (hr i hi).trans (subWrap_eq_ofInt _ _),
    packedForm_of_lanes (fun _ _ _ => ⟨rfl, rfl, fun _ => rfl⟩) (dwordLane_mapDWords subWrap) fun _ _ _ hr i hi =>
      (hr i hi).trans (subWrap_eq_ofInt _ _)⟩

/-- Settles O31: the signed difference in each lane, limited to the lane's range. -/
theorem packedSubtractSignedSaturation : Obligations.PackedSubtractSignedSaturation :=
  ⟨packedForm_of_lanes (fun _ _ _ => ⟨rfl, rfl, fun _ => rfl⟩) (byteLane_mapBytes subSatS) fun _ _ _ hr i hi =>
      (congrArg BitVec.toInt (hr i hi)).trans (toInt_subSatS (by decide) _ _),
    packedForm_of_lanes (fun _ _ _ => ⟨rfl, rfl, fun _ => rfl⟩) (wordLane_mapWords subSatS) fun _ _ _ hr i hi =>
      (congrArg BitVec.toInt (hr i hi)).trans (toInt_subSatS (by decide) _ _)⟩

/-- Settles O32: the unsigned difference in each lane, and 0 below it. -/
theorem packedSubtractUnsignedSaturation : Obligations.PackedSubtractUnsignedSaturation :=
  ⟨packedForm_of_lanes (fun _ _ _ => ⟨rfl, rfl, fun _ => rfl⟩) (byteLane_mapBytes subSatU) fun _ _ _ hr i hi =>
      (congrArg BitVec.toNat (hr i hi)).trans (toNat_subSatU _ _),
    packedForm_of_lanes (fun _ _ _ => ⟨rfl, rfl, fun _ => rfl⟩) (wordLane_mapWords subSatU) fun _ _ _ hr i hi =>
      (congrArg BitVec.toNat (hr i hi)).trans (toNat_subSatU _ _)⟩

end Sys2Proof.Machine
end

section
/-! PROOFS. Packed compare (43_compare.md R145 to R151): the mask of one lane, for every width, and the instructions that
apply it to each pair of lanes. -/

namespace Sys2Proof.Machine

open Sys2Proof

/-! ## One lane: the mask (R145, R146, R149) -/

theorem laneMask_decide (N : Nat) (c : Prop) [Decidable c] :
    laneMask N (decide c) = if c then BitVec.allOnes N else 0 := by
  by_cases hc : c <;> simp [laneMask, hc]

theorem laneEq_eq_ite {N : Nat} (a b : BitVec N) : laneEq a b = if a = b then BitVec.allOnes N else 0 :=
  laneMask_decide N _

theorem laneGt_eq_ite {N : Nat} (a b : BitVec N) : laneGt a b = if b.toInt < a.toInt then BitVec.allOnes N else 0 :=
  laneMask_decide N _

/-! ## The instructions -/

/-- Settles O36: the mask of equality in each lane. -/
theorem compareEqualMasks : Obligations.CompareEqualMasks :=
  ⟨packedForm_of_lanes (fun _ _ _ => ⟨rfl, rfl, fun _ => rfl⟩) (byteLane_mapBytes laneEq) fun _ _ _ hr i hi =>
      (hr i hi).trans (laneEq_eq_ite _ _),
    packedForm_of_lanes (fun _ _ _ => ⟨rfl, rfl, fun _ => rfl⟩) (wordLane_mapWords laneEq) fun _ _ _ hr i hi =>
      (hr i hi).trans (laneEq_eq_ite _ _),
    packedForm_of_lanes (fun _ _ _ => ⟨rfl, rfl, fun _ => rfl⟩) (dwordLane_mapDWords laneEq) fun _ _ _ hr i hi =>
      (hr i hi).trans (laneEq_eq_ite _ _)⟩

/-- Settles O37: the mask of signed order, destination against source, in each lane. -/
theorem compareGreaterMasks : Obligations.CompareGreaterMasks :=
  ⟨packedForm_of_lanes (fun _ _ _ => ⟨rfl, rfl, fun _ => rfl⟩) (byteLane_mapBytes laneGt) fun _ _ _ hr i hi =>
      (hr i hi).trans (laneGt_eq_ite _ _),
    packedForm_of_lanes (fun _ _ _ => ⟨rfl, rfl, fun _ => rfl⟩) (wordLane_mapWords laneGt) fun _ _ _ hr i hi =>
      (hr i hi).trans (laneGt_eq_ite _ _),
    packedForm_of_lanes (fun _ _ _ => ⟨rfl, rfl, fun _ => rfl⟩) (dwordLane_mapDWords laneGt) fun _ _ _ hr i hi =>
      (hr i hi).trans (laneGt_eq_ite _ _)⟩

end Sys2Proof.Machine
end

section
/-! PROOFS. Unpack (44_convert.md R159 to R165): the lanes of an interleaved result, for any first source lane, and the
instructions that interleave the high and the low halves. -/

namespace Sys2Proof.Machine

open Sys2Proof

/-! ## Interleaved lanes (R159) -/

/-- Lanes that alternate between `a` (even places) and `b` (odd places) from lane `start` on, read pair by pair. -/
theorem pair_of_alternating {N count start : Nat} {lane : QWord → Nat → BitVec N} {a b r : QWord}
    (hr : ∀ {j}, j < 2 * count → lane r j = lane (if j % 2 = 0 then a else b) (start + j / 2)) {i : Nat} (hi : i < count) :
    lane r (2 * i) = lane a (start + i) ∧ lane r (2 * i + 1) = lane b (start + i) := by
  have hhalf : (2 * i + 1) / 2 = i := by omega
  constructor
  · rw [hr (by omega), if_pos (Nat.mul_mod_right 2 i), Nat.mul_div_cancel_left i Nat.two_pos]
  · rw [hr (by omega), if_neg (by omega), hhalf]

theorem byteLane_unpackB (start : Nat) (a b : QWord) {i : Nat} (hi : i < 4) :
    byteLane (unpackB start a b) (2 * i) = byteLane a (start + i) ∧
      byteLane (unpackB start a b) (2 * i + 1) = byteLane b (start + i) :=
  pair_of_alternating (byteLane_ofBytes _) hi

theorem wordLane_unpackW (start : Nat) (a b : QWord) {i : Nat} (hi : i < 2) :
    wordLane (unpackW start a b) (2 * i) = wordLane a (start + i) ∧
      wordLane (unpackW start a b) (2 * i + 1) = wordLane b (start + i) :=
  pair_of_alternating (wordLane_ofWords _) hi

theorem dwordLane_unpackD (start : Nat) (a b : QWord) :
    dwordLane (unpackD start a b) 0 = dwordLane a start ∧ dwordLane (unpackD start a b) 1 = dwordLane b start :=
  ⟨dwordLane_ofDWords _ Nat.two_pos, dwordLane_ofDWords _ Nat.one_lt_two⟩

/-! ## The instructions -/

/-- Settles O39: the interleaving that starts at the first lane of the high half. -/
theorem unpackHighHalves : Obligations.UnpackHighHalves :=
  ⟨packedForm_of_packedOp (f := unpackB 4) (fun _ _ _ => rfl) (fun _ _ _ => rfl) (fun _ _ _ _ => rfl) fun a b _ hi =>
      byteLane_unpackB 4 a b hi,
    packedForm_of_packedOp (f := unpackW 2) (fun _ _ _ => rfl) (fun _ _ _ => rfl) (fun _ _ _ _ => rfl) fun a b _ hi =>
      wordLane_unpackW 2 a b hi,
    packedForm_of_packedOp (f := unpackD 1) (fun _ _ _ => rfl) (fun _ _ _ => rfl) (fun _ _ _ _ => rfl)
      (dwordLane_unpackD 1)⟩

/-- Settles O40: the interleaving that starts at lane 0. -/
theorem unpackLowHalves : Obligations.UnpackLowHalves := by
  refine ⟨packedForm_of_packedOp (f := unpackB 0) (fun _ _ _ => rfl) (fun _ _ _ => rfl) (fun _ _ _ _ => rfl) ?bytes,
    packedForm_of_packedOp (f := unpackW 0) (fun _ _ _ => rfl) (fun _ _ _ => rfl) (fun _ _ _ _ => rfl) ?words,
    packedForm_of_packedOp (f := unpackD 0) (fun _ _ _ => rfl) (fun _ _ _ => rfl) (fun _ _ _ _ => rfl)
      (dwordLane_unpackD 0)⟩
  case bytes =>
    intro a b i hi
    simpa only [Nat.zero_add] using byteLane_unpackB 0 a b hi
  case words =>
    intro a b i hi
    simpa only [Nat.zero_add] using wordLane_unpackW 0 a b hi

end Sys2Proof.Machine
end

section
/-! PROOFS. Logical (45_logical.md R170 to R174): the four instructions by the bits of their results. -/

namespace Sys2Proof.Machine

open Sys2Proof

/-- PANDN inverts its first operand, the destination (R172). -/
theorem getLsbD_not_and {w : Nat} (a b : BitVec w) {i : Nat} (hi : i < w) :
    (~~~a &&& b).getLsbD i = (!a.getLsbD i && b.getLsbD i) := by
  rw [BitVec.getLsbD_and, BitVec.getLsbD_not, decide_eq_true hi, Bool.true_and]

/-- Settles O41: the common step with each instruction's operation on the 64 bits. -/
theorem logicalOperations : Obligations.LogicalOperations :=
  ⟨packedForm_of_packedOp (f := fun a b => a &&& b) (fun _ _ _ => rfl) (fun _ _ _ => rfl) (fun _ _ _ _ => rfl)
      fun _ _ _ _ => BitVec.getLsbD_and,
    packedForm_of_packedOp (f := fun a b => ~~~a &&& b) (fun _ _ _ => rfl) (fun _ _ _ => rfl) (fun _ _ _ _ => rfl)
      fun a b _ hi => getLsbD_not_and a b hi,
    packedForm_of_packedOp (f := fun a b => a ||| b) (fun _ _ _ => rfl) (fun _ _ _ => rfl) (fun _ _ _ _ => rfl)
      fun _ _ _ _ => BitVec.getLsbD_or,
    packedForm_of_packedOp (f := fun a b => a ^^^ b) (fun _ _ _ => rfl) (fun _ _ _ => rfl) (fun _ _ _ _ => rfl)
      fun _ _ _ _ => BitVec.getLsbD_xor⟩

end Sys2Proof.Machine
end

section
/-! PROOFS. The two loads (46_move.md R181, R183): the value each writes, and what the common step says of the rest. -/

namespace Sys2Proof.Machine

open Sys2Proof

/-! ## MOVD (R181) -/

/-- The zeros of the zero extension written out, above the bits of the source. -/
theorem zeroExtend_eq_zero_append (v : DWord) : v.zeroExtend 64 = (0 : BitVec 32) ++ v :=
  BitVec.setWidth_eq_append (by decide)

/-- A MOVD load under the premises of R233 with a readable source: the value below 32 zeros, the tags, pc. -/
theorem exec_movdLoad_ready {p : Prefixes} {dst : MmReg} {src : RM Gpr} {s : State} {v : DWord} (hready : Ready p s)
    (hsrc : src32 p s src = .ok v) :
    exec (.movdLoad p dst src) s =
      .next (((s.setMm dst ((0 : BitVec 32) ++ v)).setTagsValid).advance (lenRM p src)) := by
  show execMovdLoad p dst src s = _
  rw [execMovdLoad, mmxCheck_ready hready, hsrc, ← zeroExtend_eq_zero_append]
  rfl

/-- A MOVD load whose source cannot be read ends as the access does (R57, R229). -/
theorem exec_movdLoad_source_error {p : Prefixes} {dst : MmReg} {src : RM Gpr} {s : State} {e : Stop}
    (hready : Ready p s) (hsrc : src32 p s src = .error e) : exec (.movdLoad p dst src) s = e.answer s :=
  mmxCheck_access_error hready hsrc

/-- Settles O42: a readable source is written below 32 zeros, one whose access raises ends there, the checks come before. -/
theorem movdLoadZeroExtends : Obligations.MovdLoadZeroExtends := by
  refine fun p dst src r s => ⟨rfl, rfl, fun hready v hsrc => ?completes, fun hready v hsrc => ?raises,
    (failsChecks_of_isMmx rfl s).raisesOnOneCause⟩
  case completes => exact ⟨_, exec_movdLoad_ready hready hsrc, State.wroteMm s dst _ _⟩
  case raises => exact exec_movdLoad_source_error hready hsrc

/-! ## MOVQ (R183) -/

/-- Settles O44: the common step with the function that answers the source and drops the destination's old value. -/
theorem movqLoadCopies : Obligations.MovqLoadCopies :=
  ⟨packedForm_of_packedOp (f := fun _ b => b) (fun _ _ _ => rfl) (fun _ _ _ => rfl) (fun _ _ _ _ => rfl)
      fun _ _ => rfl,
    fun _ _ _ => rfl⟩

end Sys2Proof.Machine
end

section
/-! PROOFS. Shifts (47_shift.md R190 to R209): what one lane computes for every width and every count, the lanes of a
shifted value, and the instructions, by register or memory and by imm8. -/

namespace Sys2Proof.Machine

open Sys2Proof

/-! ## One lane (R209), with the counts of the width or more (D12, D31) -/

/-- `r` is `v` times 2^n modulo 2^N, and 0 from the count N on. -/
def IsShl {N : Nat} (v : BitVec N) (n : Nat) (r : BitVec N) : Prop :=
  r = BitVec.ofNat N (v.toNat * 2 ^ n) ∧ (N ≤ n → r = 0)

/-- `r` is the floor of the unsigned `v` over 2^n, and 0 from the count N on. -/
def IsShr {N : Nat} (v : BitVec N) (n : Nat) (r : BitVec N) : Prop :=
  r.toNat = v.toNat / 2 ^ n ∧ (N ≤ n → r = 0)

/-- `r` is the floor of the signed `v` over 2^n, and nothing but sign bits from the count N on. -/
def IsSar {N : Nat} (v : BitVec N) (n : Nat) (r : BitVec N) : Prop :=
  r.toInt = v.toInt / 2 ^ n ∧ (N ≤ n → r = if v.toInt < 0 then BitVec.allOnes N else 0)

theorem isShl_shl {N : Nat} (v : BitVec N) (n : Nat) : IsShl v n (shl v n) :=
  ⟨shl_eq v n, fun hn => if_neg hn.not_gt⟩

/-- The cut-off at the width is no case of its own: a right shift by the width or more gives 0. -/
theorem shr_eq_ushiftRight {N : Nat} (v : BitVec N) (n : Nat) : shr v n = v >>> n := by
  rw [shr]
  split
  next => rfl
  next hn => exact (BitVec.ushiftRight_eq_zero (not_lt.mp hn)).symm

theorem isShr_shr {N : Nat} (v : BitVec N) (n : Nat) : IsShr v n (shr v n) := by
  rw [shr_eq_ushiftRight]
  exact ⟨(BitVec.toNat_ushiftRight v n).trans (Nat.shiftRight_eq_div_pow _ _), BitVec.ushiftRight_eq_zero⟩

theorem sar_eq_sshiftRight {N : Nat} (v : BitVec N) (n : Nat) : sar v n = v.sshiftRight n := by
  rw [sar_eq, BitVec.sshiftRight, Int.shiftRight_eq_div_pow, Nat.cast_pow, Nat.cast_ofNat]

/-- An arithmetic shift by the width or more leaves copies of the sign bit. -/
theorem sshiftRight_of_width_le {N n : Nat} (v : BitVec N) (hn : N ≤ n) :
    v.sshiftRight n = if v.toInt < 0 then BitVec.allOnes N else 0 := by
  split
  next hneg =>
    have hmsb : v.msb = true := BitVec.msb_eq_toInt.trans (decide_eq_true hneg)
    rw [BitVec.sshiftRight_eq_of_msb_true hmsb, BitVec.ushiftRight_eq_zero hn, BitVec.not_zero]
  next hnonneg =>
    have hmsb : v.msb = false := BitVec.msb_eq_toInt.trans (decide_eq_false hnonneg)
    exact (BitVec.sshiftRight_eq_of_msb_false hmsb).trans (BitVec.ushiftRight_eq_zero hn)

theorem isSar_sar {N : Nat} (v : BitVec N) (n : Nat) : IsSar v n (sar v n) := by
  rw [sar_eq_sshiftRight]
  refine ⟨?floor, sshiftRight_of_width_le v⟩
  case floor => rw [BitVec.toInt_sshiftRight, Int.shiftRight_eq_div_pow, Nat.cast_pow, Nat.cast_ofNat]

/-! ## Lanes shifted by the same count -/

/-- What holds of one shifted word holds of each word of a value whose words are shifted. -/
theorem shiftWords_lane {f : BitVec 16 → Nat → BitVec 16} {R : BitVec 16 → Nat → BitVec 16 → Prop}
    (hf : ∀ v n, R v n (f v n)) (a : QWord) (n : Nat) {i : Nat} (hi : i < 4) :
    R (wordLane a i) n (wordLane (shiftWords f a n) i) := by
  rw [shiftWords, wordLane_ofWords _ hi]
  exact hf _ n

/-- What holds of one shifted doubleword holds of each doubleword of a value whose doublewords are shifted. -/
theorem shiftDWords_lane {f : BitVec 32 → Nat → BitVec 32} {R : BitVec 32 → Nat → BitVec 32 → Prop}
    (hf : ∀ v n, R v n (f v n)) (a : QWord) (n : Nat) {i : Nat} (hi : i < 2) :
    R (dwordLane a i) n (dwordLane (shiftDWords f a n) i) := by
  rw [shiftDWords, dwordLane_ofDWords _ hi]
  exact hf _ n

/-! ## The format of the shifts by imm8 (R190 form (b)) -/

/-- An instruction whose meaning is the common step of format F4 with the shift `f` is of that form with `f`'s result. -/
theorem immForm_of_immOp {mk : Prefixes → MmReg → Byte → Instr} {op : Byte} {digit : BitVec 3} {f : QWord → Nat → QWord}
    {rel : QWord → Nat → QWord → Prop}
    (hmk : ∀ p dst imm, encode (mk p dst imm) = encF4 p op digit dst imm ∧ (mk p dst imm).isMmx = true ∧
      ∀ s, exec (mk p dst imm) s = immOp p dst imm f s)
    (hrel : ∀ a n, rel a n (f a n)) : ImmForm mk op digit rel := by
  intro p dst imm s
  obtain ⟨henc, hmmx, hexec⟩ := hmk p dst imm
  refine ⟨henc, fun hready => ?completes, (failsChecks_of_isMmx hmmx s).raisesOnOneCause⟩
  case completes => exact ⟨_, _, hrel _ _, (hexec s).trans (immOp_ready hready), State.wroteMm s dst _ _⟩

/-! ## The instructions -/

/-- Settles O47: the left shift of each lane by the whole source operand. -/
theorem shiftLeftLogical : Obligations.ShiftLeftLogical :=
  ⟨packedForm_of_packedOp (f := countOf (shiftWords shl)) (fun _ _ _ => rfl) (fun _ _ _ => rfl) (fun _ _ _ _ => rfl)
      fun a c _ hi => shiftWords_lane isShl_shl a c.toNat hi,
    packedForm_of_packedOp (f := countOf (shiftDWords shl)) (fun _ _ _ => rfl) (fun _ _ _ => rfl) (fun _ _ _ _ => rfl)
      fun a c _ hi => shiftDWords_lane isShl_shl a c.toNat hi,
    packedForm_of_packedOp (f := countOf shl) (fun _ _ _ => rfl) (fun _ _ _ => rfl) (fun _ _ _ _ => rfl)
      fun a c => isShl_shl a c.toNat⟩

/-- Settles O48: the right shift with sign fill of each lane by the whole source operand. -/
theorem shiftRightArithmetic : Obligations.ShiftRightArithmetic :=
  ⟨packedForm_of_packedOp (f := countOf (shiftWords sar)) (fun _ _ _ => rfl) (fun _ _ _ => rfl) (fun _ _ _ _ => rfl)
      fun a c _ hi => shiftWords_lane isSar_sar a c.toNat hi,
    packedForm_of_packedOp (f := countOf (shiftDWords sar)) (fun _ _ _ => rfl) (fun _ _ _ => rfl) (fun _ _ _ _ => rfl)
      fun a c _ hi => shiftDWords_lane isSar_sar a c.toNat hi⟩

/-- Settles O49: the right shift with zero fill of each lane by the whole source operand. -/
theorem shiftRightLogical : Obligations.ShiftRightLogical :=
  ⟨packedForm_of_packedOp (f := countOf (shiftWords shr)) (fun _ _ _ => rfl) (fun _ _ _ => rfl) (fun _ _ _ _ => rfl)
      fun a c _ hi => shiftWords_lane isShr_shr a c.toNat hi,
    packedForm_of_packedOp (f := countOf (shiftDWords shr)) (fun _ _ _ => rfl) (fun _ _ _ => rfl) (fun _ _ _ _ => rfl)
      fun a c _ hi => shiftDWords_lane isShr_shr a c.toNat hi,
    packedForm_of_packedOp (f := countOf shr) (fun _ _ _ => rfl) (fun _ _ _ => rfl) (fun _ _ _ _ => rfl)
      fun a c => isShr_shr a c.toNat⟩

/-- Settles O50: the left shift of each lane by the unsigned imm8. -/
theorem shiftLeftLogicalImmediate : Obligations.ShiftLeftLogicalImmediate :=
  ⟨immForm_of_immOp (fun _ _ _ => ⟨rfl, rfl, fun _ => rfl⟩) fun a n _ hi => shiftWords_lane isShl_shl a n hi,
    immForm_of_immOp (fun _ _ _ => ⟨rfl, rfl, fun _ => rfl⟩) fun a n _ hi => shiftDWords_lane isShl_shl a n hi,
    immForm_of_immOp (fun _ _ _ => ⟨rfl, rfl, fun _ => rfl⟩) isShl_shl⟩

/-- Settles O51: the right shift with sign fill of each lane by the unsigned imm8. -/
theorem shiftRightArithmeticImmediate : Obligations.ShiftRightArithmeticImmediate :=
  ⟨immForm_of_immOp (fun _ _ _ => ⟨rfl, rfl, fun _ => rfl⟩) fun a n _ hi => shiftWords_lane isSar_sar a n hi,
    immForm_of_immOp (fun _ _ _ => ⟨rfl, rfl, fun _ => rfl⟩) fun a n _ hi => shiftDWords_lane isSar_sar a n hi⟩

/-- Settles O52: the right shift with zero fill of each lane by the unsigned imm8. -/
theorem shiftRightLogicalImmediate : Obligations.ShiftRightLogicalImmediate :=
  ⟨immForm_of_immOp (fun _ _ _ => ⟨rfl, rfl, fun _ => rfl⟩) fun a n _ hi => shiftWords_lane isShr_shr a n hi,
    immForm_of_immOp (fun _ _ _ => ⟨rfl, rfl, fun _ => rfl⟩) fun a n _ hi => shiftDWords_lane isShr_shr a n hi,
    immForm_of_immOp (fun _ _ _ => ⟨rfl, rfl, fun _ => rfl⟩) isShr_shr⟩

end Sys2Proof.Machine
end

section
/-! PROOFS. What a form without a memory operand raises (60_exceptions.md R226 to R230): it is the check and then a body that
keeps control, so only the check can raise. -/

namespace Sys2Proof.Machine

open Sys2Proof

/-! ## An instruction without a memory operand -/

theorem hasMem_eq_false {i : Instr} : i.hasMem = false ↔ i.access = none := by
  simp [Instr.hasMem]

theorem memAccess_eq_none {R : Type} {x : RM R} {n : Nat} {kind : AccessKind} (h : RM.memAccess n kind x = none) :
    ∃ r, x = .reg r := by
  cases x with
  | reg r => exact ⟨r, rfl⟩
  | mem m => cases h

/-- Once the check passes, an MMX instruction without a memory operand completes, and the program keeps control (R230). -/
theorem exec_eq_mmxCheck_of_noMem {i : Instr} (hmmx : i.isMmx = true) (hmem : i.hasMem = false) :
    ∃ k : State → State, (∀ s, exec i s = mmxCheck i.pfx s fun s => .next (k s)) ∧ ∀ s, (k s).control = s.control := by
  have hnone := hasMem_eq_false.mp hmem
  obtain ⟨dst, src, f, -, -, -, haccess, hpacked⟩ | ⟨dst, imm, f, -, -, -, -, himm⟩ | ⟨p, dst, src, rfl⟩ |
    ⟨p, dst, src, rfl⟩ | ⟨p, dst, src, rfl⟩ | ⟨p, rfl⟩ | ⟨p, rfl⟩ := exec_shape i
  -- `mmreg1, mmreg2/mem64`
  · obtain ⟨r, rfl⟩ := memAccess_eq_none (haccess.symm.trans hnone)
    exact ⟨_, hpacked, fun _ => rfl⟩
  -- shift by immediate
  · exact ⟨_, himm, fun _ => rfl⟩
  -- the MOVD load
  · obtain ⟨r, rfl⟩ := memAccess_eq_none hnone
    exact ⟨_, fun _ => rfl, fun _ => rfl⟩
  -- the MOVD store
  · obtain ⟨r, rfl⟩ := memAccess_eq_none hnone
    exact ⟨_, fun _ => rfl, fun _ => rfl⟩
  -- the MOVQ store
  · obtain ⟨r, rfl⟩ := memAccess_eq_none hnone
    exact ⟨_, fun _ => rfl, fun _ => rfl⟩
  -- EMMS
  · exact ⟨_, fun _ => rfl, fun _ => rfl⟩
  -- CPUID
  · cases hmmx

/-! ## What raises, and which vector -/

/-- Control leaves the program only in an MMX instruction: CPUID completes (R210). -/
theorem isMmx_of_control_ne {i : Instr} {s t : State} (h : exec i s = .next t) (hne : t.control ≠ s.control) :
    i.isMmx = true := by
  cases i
  case cpuid => exact absurd (execCpuid_completed h).control hne
  all_goals rfl

/-- Before a body that keeps control, the vector is one of the check's (R221, R222, R226). -/
theorem mmxCheck_vector {p : Prefixes} {s t : State} {k : State → State} {e : ExcOutcome}
    (hk : ∀ s, (k s).control = s.control) (hrun : s.control = .running)
    (h : mmxCheck p s (fun s => .next (k s)) = .next t) (he : t.control = .environment e) :
    e.vector = .invalidOpcode ∨ e.vector = .deviceNotAvailable ∨ e.vector = .floatingPoint ∨
      ∃ n, e.vector = .external n := by
  have hne : t.control ≠ s.control := by simp [he, hrun]
  obtain ⟨-, hran⟩ | ⟨-, -, -, hran⟩ | ⟨v, rfl, hv⟩ | ⟨-, c, rfl, hc⟩ := mmxCheck_next h
  · cases hran
    exact absurd (hk s) hne
  · cases hran
    exact absurd (hk s.assertFerr) hne
  · cases he
    exact hv.imp_right .inl
  · obtain rfl | ⟨n, rfl⟩ | rfl := hc <;> cases he
    · exact .inr (.inr (.inl rfl))
    · exact .inr (.inr (.inr ⟨n, rfl⟩))

/-- Settles O18: CPUID keeps control, and without a memory operand only the check can raise. -/
theorem registerFormsRaiseNoMemoryException : Obligations.RegisterFormsRaiseNoMemoryException := by
  intro i s t e hrun h he
  have hmmx : i.isMmx = true := isMmx_of_control_ne h (by simp [he, hrun])
  refine ⟨hmmx, fun hmem => ?_⟩
  obtain ⟨k, hexec, hk⟩ := exec_eq_mmxCheck_of_noMem hmmx hmem
  exact mmxCheck_vector hk hrun ((hexec s).symm.trans h) he

end Sys2Proof.Machine
end

section
/-! PROOFS. CPUID (48_host_instructions.md R210 to R213): its results by function, and the whole next state. -/

namespace Sys2Proof.Machine

open Sys2Proof

/-! ## The results, by function (R211 to R213) -/

theorem cpuidResult_vendor {function : DWord} (h : function = 0) (r : CpuidReg) :
    cpuidResult function r = cpuidVendor r := if_pos h

theorem cpuidResult_features {function : DWord} (h : function = 1 ∨ function = 0x80000001) (r : CpuidReg) :
    cpuidResult function r = cpuidFeatures function r := by
  obtain rfl | rfl := h <;> rfl

theorem cpuidResult_other {function : DWord} (h0 : function ≠ 0) (h1 : function ≠ 1) (hext : function ≠ 0x80000001)
    (r : CpuidReg) : cpuidResult function r = Config.cpuidOther function r := by
  rw [cpuidResult, if_neg h0, if_neg h1, if_neg hext]

/-- The largest standard function is at least 1 (R211), whatever `cpuid_other` is. -/
theorem one_le_cpuidVendor_eax : 1 ≤ (cpuidVendor .eax).toNat := by
  rw [cpuidVendor]
  split
  next => decide
  next hne => exact Nat.one_le_iff_ne_zero.mpr fun hzero => hne (BitVec.eq_of_toNat_eq hzero)

theorem getLsbD_mmxFeatureBit (k : Nat) : mmxFeatureBit.getLsbD k = decide (k = 23) := by
  rw [show mmxFeatureBit = BitVec.twoPow 32 23 from rfl, BitVec.getLsbD_twoPow]
  simp [eq_comm]

theorem getLsbD_cpuidFeatures_edx (function : DWord) (k : Nat) :
    (cpuidFeatures function .edx).getLsbD k = ((Config.cpuidOther function .edx).getLsbD k || decide (k = 23)) := by
  rw [cpuidFeatures, BitVec.getLsbD_or, getLsbD_mmxFeatureBit]

/-! ## The instruction (R210) -/

/-- Settles O53: no check precedes CPUID, and its results are those of the function in EAX. -/
theorem cpuidResults : Obligations.CpuidResults := by
  refine fun p s => ⟨_, rfl, rfl, rfl, rfl, rfl, fun hvendor => ?vendor, fun hfeatures => ?features,
    fun h0 h1 hext => ?other⟩
  case vendor =>
    have hresult := cpuidResult_vendor hvendor
    exact ⟨hresult .ebx, hresult .edx, hresult .ecx, hresult .eax ▸ one_le_cpuidVendor_eax⟩
  case features =>
    have hresult := cpuidResult_features hfeatures
    refine ⟨?mmxBit, fun k hk => ?otherBits, hresult .eax, hresult .ebx, hresult .ecx⟩
    case mmxBit => simp [hresult, getLsbD_cpuidFeatures_edx]
    case otherBits => simp [hresult, getLsbD_cpuidFeatures_edx, hk]
  case other =>
    have hresult := cpuidResult_other h0 h1 hext
    exact ⟨hresult .eax, hresult .ebx, hresult .ecx, hresult .edx⟩

end Sys2Proof.Machine
end

section
/-! PROOFS. The pending floating-point exception (60_exceptions.md R226) and precise exceptions (R232): once the
check has passed, an instruction neither reads nor writes FERR# and FPpending, so that it acts as with nothing pending. -/

namespace Sys2Proof.Machine

open Sys2Proof

/-! ## The two values of the exception report -/

/-- The state with other values of FERR# and FPpending. -/
def State.setReport (s : State) (ferr pending : Bool) : State := { s with ferr := ferr, fpPending := pending }

/-! ## An operand access reads neither of them -/

theorem physAddrs_setReport (s : State) (f p : Bool) (kind : AccessKind) (ls : List Nat) :
    physAddrs (s.setReport f p) kind ls = physAddrs s kind ls := by
  induction ls with
  | nil => rfl
  | cons l ls ih => simp only [physAddrs, ih]; rfl

theorem accessAddrs_setReport (s : State) (f p : Bool) (seg : Seg) (off : DWord) (n : Nat) (kind : AccessKind) :
    accessAddrs (s.setReport f p) seg off n kind = accessAddrs s seg off n kind := by
  have htables : translateByTables (s.setReport f p) seg off n kind = translateByTables s seg off n kind := by
    unfold translateByTables
    rw [physAddrs_setReport]
    rfl
  unfold accessAddrs translateAddr
  rw [htables]
  rfl

theorem memRead_setReport (s : State) (f p : Bool) (seg : Seg) (off : DWord) (n : Nat) :
    memRead (s.setReport f p) seg off n = memRead s seg off n := by
  simp only [memRead, accessAddrs_setReport]
  rfl

theorem memWrite_setReport (s : State) (f p : Bool) (seg : Seg) (off : DWord) (n v : Nat) :
    memWrite (s.setReport f p) seg off n v = memWrite s seg off n v := by
  simp only [memWrite, accessAddrs_setReport]
  rfl

theorem src64_setReport (pfx : Prefixes) (src : RM MmReg) (s : State) (f p : Bool) :
    src64 pfx (s.setReport f p) src = src64 pfx s src := by
  cases src with
  | reg r => rfl
  | mem m => exact congrArg (Except.map _) (memRead_setReport s f p _ _ 8)

theorem src32_setReport (pfx : Prefixes) (src : RM Gpr) (s : State) (f p : Bool) :
    src32 pfx (s.setReport f p) src = src32 pfx s src := by
  cases src with
  | reg r => rfl
  | mem m => exact congrArg (Except.map _) (memRead_setReport s f p _ _ 4)

/-! ## The body of an instruction neither reads nor writes them -/

/-- With other values of FERR# and FPpending, `k` answers the same next state with those values. -/
def ReportFree (k : State → Result) : Prop :=
  ∀ (s t : State) (f p : Bool), k s = .next t → k (s.setReport f p) = .next (t.setReport f p)

/-- What is independent of the two values keeps them: give it those that the state has. -/
theorem ReportFree.ferr_eq {k : State → Result} {s t : State} (hk : ReportFree k) (h : k s = .next t) :
    t.ferr = s.ferr := by
  have hsame : k s = .next (t.setReport s.ferr s.fpPending) := hk s t s.ferr s.fpPending h
  calc t.ferr = (t.setReport s.ferr s.fpPending).ferr := congrArg State.ferr (Host.Outcome.next.inj (h.symm.trans hsame))
    _ = s.ferr := rfl

theorem reportFree_next {g : State → State} (hg : ∀ s f p, g (s.setReport f p) = (g s).setReport f p) :
    ReportFree fun s => .next (g s) := by
  intro s t f p h
  cases h
  exact congrArg Host.Outcome.next (hg s f p)

/-- The access answers the same, and so does what follows it; what the access raises leaves FERR# and FPpending too. -/
theorem reportFree_withAccess {α : Type} {a : State → Except Stop α} {g : State → α → State}
    (ha : ∀ s f p, a (s.setReport f p) = a s) (hg : ∀ s v f p, g (s.setReport f p) v = (g s v).setReport f p) :
    ReportFree fun s => withAccess s (a s) fun v => .next (g s v) := by
  intro s t f p h
  simp only [ha]
  obtain ⟨v, hv, ht⟩ | ⟨v, hv, rfl⟩ := withAccess_next h
  · cases ht
    rw [hv]
    exact congrArg Host.Outcome.next (hg s v f p)
  · rw [hv]
    rfl

/-- To go on with a function of what an access answers is to go on with the answer and apply the function there. -/
theorem withAccess_map {α β : Type} (s : State) (a : Except Stop α) (g : α → β) (k : β → Result) :
    withAccess s (a.map g) k = withAccess s a fun v => k (g v) := by
  cases a with
  | ok v => rfl
  | error e => exact (withAccess_error s e k).trans (withAccess_error s e _).symm

/-- The MOVD store: a register is written at once, memory by the access. -/
theorem exec_movdStore_reportFree (pfx : Prefixes) (dst : RM Gpr) (src : MmReg) :
    ∃ k, (∀ s, exec (.movdStore pfx dst src) s = mmxCheck pfx s k) ∧ ReportFree k := by
  refine ⟨_, fun _ => rfl, ?_⟩
  cases dst with
  | reg r => exact reportFree_next fun _ _ _ => rfl
  | mem m =>
    simp only [dst32, withAccess_map]
    exact reportFree_withAccess (fun s f p => memWrite_setReport s f p _ _ _ _) fun _ _ _ _ => rfl

/-- The MOVQ store, as the MOVD store. -/
theorem exec_movqStore_reportFree (pfx : Prefixes) (dst : RM MmReg) (src : MmReg) :
    ∃ k, (∀ s, exec (.movqStore pfx dst src) s = mmxCheck pfx s k) ∧ ReportFree k := by
  refine ⟨_, fun _ => rfl, ?_⟩
  cases dst with
  | reg r => exact reportFree_next fun _ _ _ => rfl
  | mem m =>
    simp only [dst64, withAccess_map]
    exact reportFree_withAccess (fun s f p => memWrite_setReport s f p _ _ _ _) fun _ _ _ _ => rfl

/-- Every MMX instruction is the check and then a body that neither reads nor writes FERR# and FPpending (R228). -/
theorem exec_eq_mmxCheck_reportFree {i : Instr} (hmmx : i.isMmx = true) :
    ∃ k, (∀ s, exec i s = mmxCheck i.pfx s k) ∧ ReportFree k := by
  obtain ⟨dst, src, f, -, -, -, -, hpacked⟩ | ⟨dst, imm, f, -, -, -, -, himm⟩ | ⟨p, dst, src, rfl⟩ |
    ⟨p, dst, src, rfl⟩ | ⟨p, dst, src, rfl⟩ | ⟨p, rfl⟩ | ⟨p, rfl⟩ := exec_shape i
  -- `mmreg1, mmreg2/mem64`
  · exact ⟨_, hpacked, reportFree_withAccess (src64_setReport i.pfx src) fun _ _ _ _ => rfl⟩
  -- shift by immediate
  · exact ⟨_, himm, reportFree_next fun _ _ _ => rfl⟩
  -- the MOVD load
  · exact ⟨_, fun _ => rfl, reportFree_withAccess (src32_setReport p src) fun _ _ _ _ => rfl⟩
  -- the two stores
  · exact exec_movdStore_reportFree p dst src
  · exact exec_movqStore_reportFree p dst src
  -- EMMS
  · exact ⟨_, fun _ => rfl, reportFree_next fun _ _ _ => rfl⟩
  -- CPUID
  · cases hmmx

/-! ## A pending exception with CR0.NE = 0 (R226) -/

/-- Where a pending exception is the only cause, the check reports it (R228). -/
theorem mmxCheck_pending {pfx : Prefixes} {s : State} (hlock : pfx.contains .lock = false) (hem : s.em = false)
    (hts : s.ts = false) (hpend : s.fpPending = true) (k : State → Result) : mmxCheck pfx s k = fpReport s .next k := by
  simp only [mmxCheck, fpPendingEvent, hlock, hem, hts, hpend, Bool.false_eq_true, if_false, if_true]

/-- Settles O16: the three policies by the report; an ignored exception lets the body run, which does not look at it. -/
theorem pendingWithNeClear : Obligations.PendingWithNeClear := by
  intro i s hmmx hlock hem hts hpend hne
  obtain ⟨k, hexec, hfree⟩ := exec_eq_mmxCheck_reportFree hmmx
  have hreport : exec i s = fpReport s .next k := (hexec s).trans (mmxCheck_pending hlock hem hts hpend k)
  refine ⟨fun hpol => ⟨hreport.trans (fpReport_of_stuck hne hpol _ _), rfl⟩,
    fun n hpol => hreport.trans (fpReport_of_external hne hpol _ _), fun hpol t ht => ?ignore⟩
  case ignore =>
    have hready : Ready i.pfx (s.setReport true false) := ⟨hlock, hem, hts, rfl⟩
    have hran : k (s.setReport true false) = .next t :=
      (mmxCheck_ready hready k).symm.trans ((hexec (s.setReport true false)).symm.trans ht)
    have hferr : t.ferr = true := hfree.ferr_eq hran
    calc exec i s = k { s with ferr := true } := hreport.trans (fpReport_of_ignore hne hpol _ _)
      _ = k ((s.setReport true false).setReport true true) := by rw [← hpend]; rfl
      _ = .next (t.setReport true true) := hfree _ t true true hran
      _ = .next { t with fpPending := true } := by rw [← hferr]; rfl

/-! ## Precise exceptions (R232) -/

/-- FERR# changes only where a floating-point exception is pending (R226). -/
theorem exec_ferr {i : Instr} {s t : State} (h : exec i s = .next t) (hne : t.ferr ≠ s.ferr) : s.fpPending = true := by
  cases hmmx : i.isMmx with
  | false =>
    cases i
    case cpuid =>
      cases h
      exact absurd rfl hne
    all_goals cases hmmx
  | true =>
    obtain ⟨k, hexec, hfree⟩ := exec_eq_mmxCheck_reportFree hmmx
    obtain ⟨-, hran⟩ | ⟨hpend, -⟩ | ⟨v, rfl, -⟩ | ⟨hpend, -⟩ := mmxCheck_next ((hexec s).symm.trans h)
    · exact absurd (hfree.ferr_eq hran) hne
    · exact hpend
    · exact absurd rfl hne
    · exact hpend

/-- Settles O17: an instruction that gives the environment control did not complete, so it left the program at its pc. -/
theorem exceptionsArePrecise : Obligations.ExceptionsArePrecise := by
  intro i s t e hrun h he
  obtain ⟨⟨c, -, ht⟩, hpc⟩ | ⟨hctl, -⟩ := exec_memOutcome h
  · have hc : c = .environment e := by rw [← he, ht]
    exact ⟨hpc e he, hc ▸ ht, exec_ferr h⟩
  · cases he.symm.trans (hctl.trans hrun)

end Sys2Proof.Machine
end

section
/-! PROOFS. The interrupt-7 protocol (60_exceptions.md R222, R234, R241): the save areas after a save, and the handler's
whole next state. -/

namespace Sys2Proof.Machine

open Sys2Proof

/-! ## The save areas -/

theorem lookup_filter_ne {β : Type} (l : List (Nat × β)) {n m : Nat} (hne : m ≠ n) :
    (l.filter fun a => a.1 != n).lookup m = l.lookup m := by
  induction l with
  | nil => rfl
  | cons a l ih =>
    by_cases hkey : a.1 = n
    · have hm : (m == a.1) = false := by simpa [hkey] using hne
      rw [List.filter_cons_of_neg (by simpa using hkey), List.lookup_cons, hm, ih]
    · rw [List.filter_cons_of_pos (by simpa using hkey), List.lookup_cons, List.lookup_cons, ih]

/-- A save gives the task the image and leaves the areas of the other tasks (R241). -/
theorem TaskTable.area_save (t : TaskTable) (saved task : Nat) (img : FpImage) :
    (t.save saved img).area task = if task = saved then some img else t.area task := by
  split
  next heq => simp [TaskTable.area, TaskTable.save, heq]
  next hne =>
    have hkey : (task == saved) = false := by simpa using hne
    rw [TaskTable.area, TaskTable.save, List.lookup_cons, hkey]
    exact lookup_filter_ne t.areas hne

/-! ## The handler -/

/-- The handler's next state, where the running task has an image after the save: that image, CR0.TS = 0, and the program
at the pc of the exception (R234, R241). -/
theorem int7Handler_of_area {s : State} {tasks : TaskTable} {e : ExcOutcome} {img : FpImage}
    (himg : (tasks.save tasks.owner s.fpImage).area tasks.current = some img) :
    s.int7Handler tasks e = some (State.returnFromHandler
      { (s.loadFpImage img).writeTs false with
        os := some { tasks.save tasks.owner s.fpImage with owner := tasks.current } } e) := by
  simp only [State.int7Handler, himg]

theorem environmentStep_of_int7 {s t : State} {tasks : TaskTable} {pc : DWord} (hos : s.os = some tasks)
    (hint7 : s.int7Handler tasks ⟨.deviceNotAvailable, pc⟩ = some t) :
    environmentStep ⟨.deviceNotAvailable, pc⟩ s = .next t := by
  simp only [environmentStep, hos, hint7]

/-- Settles O19: the instruction raises 7, and the next step is the handler's, whose state is read off field by field. -/
theorem interrupt7Protocol : Obligations.Interrupt7Protocol := by
  intro i s tasks img hmmx hlock hem hts hos himg
  obtain ⟨-, hraises, -⟩ := failsChecks_of_isMmx hmmx s
  have harea (task : Nat) := tasks.area_save tasks.owner task s.fpImage
  have hcurrent : (tasks.save tasks.owner s.fpImage).area tasks.current = some img := by
    rw [harea]
    split at himg
    next heq => rw [if_pos heq, himg]; rfl
    next hne => rw [if_neg hne, himg]
  have hhandler := int7Handler_of_area (s := s.raised .deviceNotAvailable) (e := ⟨.deviceNotAvailable, s.pc⟩) hcurrent
  have hstep := (step_of_environment (s := s.raised .deviceNotAvailable) rfl).trans (environmentStep_of_int7 hos hhandler)
  refine ⟨_, _, _, hraises hlock hem hts, hstep, rfl, rfl, ?ts, ?em, rfl, rfl, rfl, rfl, rfl, rfl, rfl, ?saved,
    fun task hne => ?others, rfl, rfl, rfl⟩
  case ts => exact (getLsbD_cr0_writeTs s false 3).trans (if_pos rfl)
  case em => exact (getLsbD_cr0_writeTs s false 2).trans hem
  case saved => exact (harea tasks.owner).trans (if_pos rfl)
  case others => exact (harea task).trans (if_neg hne)

end Sys2Proof.Machine
end
